-- ==== Sys2Proof/Word.lean ====
section
/-! DEFINITION. The word types of the UB8 and the eight-slot record that every per-slot table of the part is held in. -/

namespace Sys2Proof

/-- One byte of a slot-line frame; also a session tag (R73). -/
abbrev Byte := BitVec 8

/-- One word of the host's register window (section 11.2). -/
abbrev Word := BitVec 16

/-- Slots are numbered 0 to 7 (section 5.3). -/
abbrev Slot := Fin 8

/-- The eight slots in ascending order. -/
def allSlots : List Slot := [0, 1, 2, 3, 4, 5, 6, 7]

/-- One value for each of the eight slots. -/
structure PerSlot (α : Type) where
  s0 : α
  s1 : α
  s2 : α
  s3 : α
  s4 : α
  s5 : α
  s6 : α
  s7 : α
deriving DecidableEq, Repr

/-- The value of slot `k`. -/
def PerSlot.get {α : Type} (v : PerSlot α) (k : Slot) : α :=
  match k with
  | 0 => v.s0
  | 1 => v.s1
  | 2 => v.s2
  | 3 => v.s3
  | 4 => v.s4
  | 5 => v.s5
  | 6 => v.s6
  | 7 => v.s7

/-- `v` with the value of slot `k` replaced by `x`. -/
def PerSlot.set {α : Type} (v : PerSlot α) (k : Slot) (x : α) : PerSlot α :=
  match k with
  | 0 => { v with s0 := x }
  | 1 => { v with s1 := x }
  | 2 => { v with s2 := x }
  | 3 => { v with s3 := x }
  | 4 => { v with s4 := x }
  | 5 => { v with s5 := x }
  | 6 => { v with s6 := x }
  | 7 => { v with s7 := x }

/-- The same value for every slot. -/
def PerSlot.all {α : Type} (x : α) : PerSlot α := ⟨x, x, x, x, x, x, x, x⟩

/-- `f` applied to every slot's value. -/
def PerSlot.map {α β : Type} (f : α → β) (v : PerSlot α) : PerSlot β :=
  ⟨f v.s0, f v.s1, f v.s2, f v.s3, f v.s4, f v.s5, f v.s6, f v.s7⟩

/-- The record whose value at slot `k` is `f k`. -/
def PerSlot.tabulate {α : Type} (f : Slot → α) : PerSlot α :=
  ⟨f 0, f 1, f 2, f 3, f 4, f 5, f 6, f 7⟩

end Sys2Proof
end

