-- ==== Sys2Proof/Syntax.lean ====
section
/-! DEFINITION. The commands the UB8 takes: one constructor for each row of the table of operations and events, with the row's operands. -/

namespace Sys2Proof

/-- The samples one scan takes from one slot (R128): output power in qW and output voltage in 50 mV units. The
operands are what the sense inputs give; the scan itself saturates them. -/
structure Sample where
  power : Nat
  voltage : Nat
deriving DecidableEq, Repr

/-- The number a strike report carries (R133). -/
inductive StrikeNumber where
  | first
  | second
deriving DecidableEq, Repr

/-- How the verification of a store came out (R149, R150). -/
inductive VerifyOutcome where
  /-- Every field read back equal and the check value was programmed and read back correctly. -/
  | success
  /-- A field read back different; `untouched` when no cell of the target took a programmed value. -/
  | fieldDiffers (untouched : Bool)
  /-- The fields matched and the check value read back wrong. -/
  | checkDiffers
deriving DecidableEq, Repr

/-- The setting registers (R156) other than PASS_LIMIT, which has a row of its own. -/
inductive SettingReg where
  | settleTime
  | pollPeriod
  | linkCtrl
  | rampCtrl
  | monCtrl
  | overdrawMargin
  | sagLevel
  | sagHoldoff
deriving DecidableEq, Repr

/-- The commands, in the order of the table. -/
inductive Instr where
  /-- DEVICE_RESET (R144). `reached`: whether the phase of a store that the reset cuts short had reached its decisive point (R151). -/
  | deviceReset (reached : Bool)
  /-- POLICY_LOAD (R145). -/
  | policyLoad
  /-- INSERTION (R75). -/
  | insertion (slot : Slot)
  /-- REMOVAL (R76). -/
  | removal (slot : Slot)
  /-- SCAN (R128), with the samples the sense inputs give. -/
  | scan (samples : PerSlot Sample) (bulk : Nat)
  /-- OUTPUT_GOOD (R130): the second qualifying scan in a row of the slot's watch. -/
  | outputGood (slot : Slot)
  /-- RAMP_DONE (R120): an output-good report, with the tag it carries, is taken. -/
  | rampDone (slot : Slot) (tag : Byte)
  /-- RAMP_START (R119). -/
  | rampStart
  /-- RAMP_TIMEOUT (R121). -/
  | rampTimeout (slot : Slot)
  /-- BACKOFF_END (R122). -/
  | backoffEnd (slot : Slot)
  /-- OVERDRAW_STRIKE (R133): a strike report, with its tag and number, is taken. -/
  | overdrawStrike (slot : Slot) (tag : Byte) (number : StrikeNumber)
  /-- STRIKE_CLEAR (R134): the 256th clean scan of the slot. -/
  | strikeClear (slot : Slot)
  /-- SAG_BEGIN (R136, R138): a sag-begin report, with the scan's bulk voltage, is taken. -/
  | sagBegin (bulk : Nat)
  /-- SAG_END (R139). -/
  | sagEnd
  /-- RECALL_DEADLINE (R51, R52). -/
  | recallDeadline (slot : Slot)
  /-- POLL_TIMER (R102). -/
  | pollTimer (slot : Slot)
  /-- FRAME_SEND (R100): the line has been high for the gap. -/
  | frameSend (slot : Slot)
  /-- LINE_GAP_TIMEOUT (R96). -/
  | lineGapTimeout (slot : Slot)
  /-- RESPONSE_TIMEOUT (R95). -/
  | responseTimeout (slot : Slot)
  /-- RESPONSE_COMPLETE (R101): the bytes that arrived; `lowStop` when the response ended on a low stop bit. -/
  | responseComplete (slot : Slot) (bytes : List Byte) (lowStop : Bool)
  /-- LINK_GRACE_EXPIRY (R89). -/
  | linkGraceExpiry (slot : Slot)
  /-- HELLO (R80, R78, R87), as the Session Manager receives it; the tier count is the number of draws. -/
  | hello (slot : Slot) (tag : Byte) (kind : Word) (serial : BitVec 32) (flags preferred : Byte) (draws : List Word)
  /-- CLAIM (R26, R84). -/
  | claim (slot : Slot) (tag : Byte) (wanted least : Byte)
  /-- YIELD (R85). -/
  | yieldTier (slot : Slot) (tag : Byte) (tier : Byte)
  /-- READY (R50). -/
  | ready (slot : Slot) (tag : Byte) (tier : Byte)
  /-- FAULT (R86). -/
  | moduleFault (slot : Slot) (tag : Byte) (code : Byte)
  /-- NONE_MESSAGE (R77). -/
  | noneMessage (slot : Slot) (tag : Byte)
  /-- APPLY_POLICY (R161), with the slot field of the command. -/
  | applyPolicy (slot : Byte)
  /-- SET_BUDGET (R162). -/
  | setBudget (limit reserve : Word)
  /-- ADMIT (R163). -/
  | admitSlot (slot : Byte)
  /-- EVICT (R164). -/
  | evict (slot : Byte) (hard : Word)
  /-- SET_TIER (R165). -/
  | setTier (slot : Byte) (tier : Word)
  /-- CLEAR_FAULT (R93, R166). -/
  | clearFault (slot : Byte)
  /-- RESCAN (R79, R166). -/
  | rescan (slot : Byte)
  /-- STORE_POLICY (R148). -/
  | storePolicy
  /-- ERASE_COMPLETE (R149). -/
  | eraseComplete
  /-- PROGRAM_COMPLETE (R149). -/
  | programComplete
  /-- VERIFY_COMPLETE (R150), with how the verification came out. -/
  | verifyComplete (outcome : VerifyOutcome)
  /-- SET_BACKFILL (R157): a CONTROL write that gives BACKFILL this value and the other fields the values they have. -/
  | setBackfill (value : Bool)
  /-- SET_PREEMPT (R157): the same for PREEMPT. -/
  | setPreempt (value : Bool)
  /-- SET_INT_ENABLES (R157, R175): the same for the two interrupt enables. -/
  | setIntEnables (noticeEn cmdEn : Bool)
  /-- PORT_RESET (R167): a CONTROL write of the standing fields with PORT_RESET = 1. -/
  | portReset
  /-- SETTING_WRITE (R156). -/
  | settingWrite (reg : SettingReg) (value : Word)
  /-- PASS_LIMIT_WRITE (R43, R156). -/
  | passLimitWrite (value : Word)
  /-- STATUS_W1C (R155): a write of STATUS. -/
  | statusW1C (value : Word)
  /-- TABLE_SEL_WRITE (R158). -/
  | tableSelWrite (value : Word)
  /-- TABLE_DATA_READ (R158). -/
  | tableDataRead
  /-- TABLE_DATA_WRITE (R159). -/
  | tableDataWrite (value : Word)
  /-- NOTICE_DATA_READ (R174). -/
  | noticeDataRead
  /-- BUDGET_REGISTER_READ (R20): the fetch of a read word at a register address. -/
  | budgetRegisterRead (addr : BitVec 7)
  /-- REGISTER_WRITE (R155): a write word at a register address. -/
  | registerWrite (addr : BitVec 7) (value : Word)
  /-- TRANSACTION_END (R154): CS_N rises. -/
  | transactionEnd
  /-- PRESENT_CHANGE (R75, R76): the PRESENT input goes to this level (`true` active). -/
  | presentChange (slot : Slot) (active : Bool)
  /-- RESPONSE_BEGIN (R95). -/
  | responseBegin (slot : Slot)
deriving DecidableEq, Repr

end Sys2Proof
end

