-- ==== Sys2Proof/Decode.lean ====
section
/-! DEFINITION. The command a table word spells. -/

namespace Sys2Proof

/-- spec/opcode_table.json gives no row any bits: the commands reach the part as register accesses, pins, bytes and
timers, so no word spells one. -/
def decodeTableWord (_nbits _w : Nat) : Option Instr := none

end Sys2Proof
end

