-- ==== Sys2Proof/Machine/Types.lean ====
section
/-! DEFINITION. The data the UB8's nine blocks hold: policy, sessions, leases, queue entries, slot-line records, ramp and monitor records, policy copies, notices. -/

namespace Sys2Proof.Machine

/-- The reason codes of R171. -/
inductive Reason where
  | none | claim | bringup | restore | host | policy | preempt | shed | overdraw | recallTimeout | linkTimeout
  | removed | sag | moduleFault | moduleRestart | rampFail | badList | overCap | notHigher | notAdmitted
  | inTransition | neverFits | cancelled | barred | yielded
deriving DecidableEq, Repr

/-- A slot's class (R142). -/
inductive PowerClass where
  | deferrable
  | essential
deriving DecidableEq, Repr

/-- A slot's start mode (R142). -/
inductive StartMode where
  | host
  | auto
deriving DecidableEq, Repr

/-- A slot policy record (R142); the STAGING record has the same fields (R159). -/
structure PolicyRecord where
  enabled : Bool
  cls : PowerClass
  rank : Nat
  floor : Nat
  cap : Nat
  startMode : StartMode
deriving DecidableEq, Repr

/-- The Global Settings (R142). -/
structure Settings where
  supplyLimit : Nat
  reserve : Nat
  settleTime : Nat
  pollPeriod : Nat
  lineRetries : Nat
  linkGrace : Nat
  rampTimeout : Nat
  rampRetries : Nat
  scanPeriod : Nat
  overdrawCount : Nat
  overdrawMargin : Nat
  passLimit : Nat
  sagLevel : Nat
  sagHoldoff : Nat
  backfill : Bool
  preempt : Bool
deriving DecidableEq, Repr

/-- The content of a policy image less its check value (R142). -/
structure Image where
  generation : Word
  records : PerSlot PolicyRecord
  settings : Settings
deriving DecidableEq, Repr

/-- Session states (R73, R74). -/
inductive SessState where
  | vacant | barred | listening | rejected | standby | rampWait | ramping | on | faulted
deriving DecidableEq, Repr

/-- The presence timer (R73, R75, R76), with the milliseconds it has run. -/
inductive Presence where
  | idle
  | toInsertion (elapsed : Nat)
  | toRemoval (elapsed : Nat)
deriving DecidableEq, Repr

/-- A module descriptor as received (R73, R78). The tier count is the number of draws. -/
structure Descriptor where
  kind : Word
  serial : BitVec 32
  flags : Byte
  preferred : Byte
  draws : List Word
deriving DecidableEq, Repr

/-- A session record (R73). `lastEnd` is the cause of the last session end, `refusal` the reason of the refusal that
led to REJECTED; the last reason field shows one or the other. -/
structure Session where
  state : SessState
  tag : Byte
  admitFlag : Bool
  desc : Option Descriptor
  lastEnd : Reason
  refusal : Reason
  protoErrors : Nat
  presence : Presence
deriving DecidableEq, Repr

/-- What raised a Demand Queue entry (R22, R26). -/
inductive EntryOrigin where
  | claim | bringup | restore | host
deriving DecidableEq, Repr

/-- What issued a recall (R46). -/
inductive RecallOrigin where
  | preempt | shed | host | policy | overdraw
deriving DecidableEq, Repr

/-- A change of tier in flight (section 1.3). The victim mark of a LOWER is the slot's place in the reclaim record's victim set. -/
inductive Transition where
  | raise (target draw : Nat) (origin : EntryOrigin)
  | lower (target draw : Nat) (origin : RecallOrigin) (deadline : Nat)
deriving DecidableEq, Repr

/-- A lease entry (R9). Its slot is its index; its phase is the session state. -/
structure Lease where
  tag : Byte
  tier : Nat
  draw : Nat
  short : Bool
  trans : Option Transition
deriving DecidableEq, Repr

/-- A Demand Queue entry (R22). The reclaim mark is held in the reclaim record, which names the entry's slot. -/
structure Entry where
  slot : Slot
  tag : Byte
  origin : EntryOrigin
  wanted : Nat
  least : Nat
  cls : PowerClass
  rank : Nat
  passCount : Nat
deriving DecidableEq, Repr

/-- The reclaim record (R56): beneficiary, shortfall and the slots whose LOWERs carry the victim mark. -/
structure Reclaim where
  slot : Slot
  tag : Byte
  shortfall : Nat
  victims : List Slot
deriving DecidableEq, Repr

/-- Allocator states (R19). -/
inductive AllocState where
  | running | shedding | sagHold
deriving DecidableEq, Repr

/-- The three channels of an outbox (R99). -/
inductive Channel where
  | session | recall | claim
deriving DecidableEq, Repr

/-- Downstream messages (R97). A RECALL's second field is its deadline in 10 ms units. -/
inductive DownMsg where
  | poll
  | probe
  | welcome (tag : Byte)
  | refuse (reason : Reason)
  | sever (reason : Reason)
  | recall (target deadline : Nat)
  | grant (tier : Nat) (short : Bool)
  | hold (position : Nat)
  | deny (reason : Reason)
deriving DecidableEq, Repr

/-- A downstream frame: its message, the tag and sequence bit it bears, and the channel its message came from (none for POLL and PROBE). -/
structure Frame where
  msg : DownMsg
  tag : Byte
  seq : Bool
  chan : Option Channel
deriving DecidableEq, Repr

/-- What has become of the message of a pending frame (R99, R100). -/
inductive Standing where
  /-- It stands unchanged in its channel; a POLL or PROBE stands until answered. -/
  | stands
  /-- It stands as before, and the retries of its frame are exhausted in LISTENING: the frame waits for the poll timer (R107). -/
  | waits
  /-- Another message has taken its place in its channel. -/
  | replaced
  /-- It, or what replaced it, has been removed without a replacement. -/
  | removed
deriving DecidableEq, Repr

/-- The pending frame (R100): what has become of its message, and `sent` once it has been driven onto the line. -/
structure PendingFrame where
  frame : Frame
  message : Standing
  sent : Bool
deriving DecidableEq, Repr

/-- What an SLC is doing on its line (R95, R96): nothing, waiting for the line gap with a frame due, waiting for a
response to begin, or receiving one. `byPoll` says that the poll timer made the frame due. Times are in ms. -/
inductive LinePhase where
  | idle
  | due (elapsed : Nat) (byPoll : Bool)
  | awaiting (frame : Frame) (elapsed : Nat)
  | receiving (frame : Frame) (elapsed : Nat)
deriving DecidableEq, Repr

/-- The six failure kinds (R101). -/
inductive FailKind where
  | noResponse | badFormat | badCrc | badKind | badTag | badEcho
deriving DecidableEq, Repr

/-- The six error counters (R101). -/
structure Counters where
  noResponse : Nat
  badFormat : Nat
  badCrc : Nat
  badKind : Nat
  badTag : Nat
  badEcho : Nat
deriving DecidableEq, Repr

/-- The state of one Slot Line Controller (R99 to R113). `lost` is the link state, `wire` the bytes of the frame last sent. -/
structure Line where
  outSession : Option DownMsg
  outRecall : Option DownMsg
  outClaim : Option DownMsg
  pendingFrame : Option PendingFrame
  retries : Nat
  seq : Bool
  lost : Bool
  grace : Option Nat
  poll : Option Nat
  counters : Counters
  phase : LinePhase
  wire : List Byte
deriving DecidableEq, Repr

/-- Ramp states (R117). -/
inductive RampState where
  | none | queued | backoff | ramping
deriving DecidableEq, Repr

/-- A slot's ramp record with its gate and aux enable (R116, R117, R74). -/
structure Ramp where
  state : RampState
  tag : Byte
  cls : PowerClass
  retry : Nat
  timer : Nat
  gate : Bool
  aux : Bool
deriving DecidableEq, Repr

/-- The Power Path Unit (R116 to R118). -/
structure PowerPath where
  slots : PerSlot Ramp
  queue : List Slot
  holder : Option Slot
  hold : Bool
deriving DecidableEq, Repr

/-- A slot's kept values, watch and strike record (R129, R130, R132 to R134). -/
structure MonSlot where
  power : Nat
  voltage : Nat
  peak : Nat
  window : List Nat
  run : Nat
  struck : Bool
  clean : Nat
  watchArmed : Bool
  watchTag : Byte
  watchCount : Nat
deriving DecidableEq, Repr

/-- Sag detector states (R135). -/
inductive SagState where
  | normal | sagged | holdoff
deriving DecidableEq, Repr

/-- The Draw Monitor (R128 to R135). Timers are in ms. -/
structure Monitor where
  slots : PerSlot MonSlot
  bulk : Nat
  sag : SagState
  low : Nat
  holdoff : Nat
  scanTimer : Nat
deriving DecidableEq, Repr

/-- The content of one nonvolatile copy (R142, R143, R149). -/
inductive Copy where
  /-- Every cell reads erased. -/
  | blank
  /-- Content that no description of VALID fits: partly erased or partly programmed. -/
  | partly
  /-- Every field of the image is programmed and the check value field is still erased. -/
  | unchecked (img : Image)
  /-- Every field of the image is programmed and its check value is in place. -/
  | whole (img : Image)
deriving DecidableEq, Repr

/-- The two copies. -/
inductive CopyId where
  | a | b
deriving DecidableEq, Repr

/-- How a copy is classed at load (R143). `none` is START_REPORT's code 0, not classified. -/
inductive CopyClass where
  | none | valid | blank | bad
deriving DecidableEq, Repr

/-- The source of the live policy (R144). `none` is START_REPORT's code 0. -/
inductive Source where
  | none | a | b | defaults
deriving DecidableEq, Repr

/-- Store states (R149). -/
inductive StoreState where
  | idle | erasing | programming | verifying
deriving DecidableEq, Repr

/-- START_REPORT (R145). -/
structure StartReport where
  classA : CopyClass
  classB : CopyClass
  source : Source
  generation : Byte
deriving DecidableEq, Repr

/-- The Policy Store (R142 to R153). `discard` is set when a host port reset has discarded the result of the store in progress (R152). -/
structure PolicyStore where
  copyA : Copy
  copyB : Copy
  active : CopyId
  activeGen : Word
  state : StoreState
  snapshot : Option Image
  discard : Bool
  report : StartReport
  startDone : Bool
deriving DecidableEq, Repr

/-- Results of a command (R160). -/
inductive CmdResult where
  | ok | badSlot | badArg | state | floorConflict | budgetConflict | storeFail
deriving DecidableEq, Repr

/-- The Command Unit (R160, R168). It is BUSY exactly while the store state is not IDLE. -/
structure CommandUnit where
  policy : PerSlot PolicyRecord
  settings : Settings
  staging : PolicyRecord
  result : CmdResult
deriving DecidableEq, Repr

/-- The Allocator (R1 to R9, R19, R22, R56). `passDue` is the model's own: within a happening it records that one of the
causes of R37 has arisen; it is clear between happenings. -/
structure Allocator where
  committed : Nat
  earmark : Nat
  leases : PerSlot (Option Lease)
  queue : List Entry
  state : AllocState
  sagCondition : Bool
  reclaim : Option Reclaim
  passDue : Bool
deriving DecidableEq, Repr

/-- Notice kinds (R170). -/
inductive NoticeKind where
  | start | sessionOpen | sessionRefused | sessionClosed | queued | granted | denied | recallIssued | recallDone
  | recallSilent | cut | faulted | overdrawStrike | linkLost | linkBack | rampRetry | sagBegin | sagEnd | shedBegin
  | shedEnd | reclaimBegin | reclaimEnd | storeDone
deriving DecidableEq, Repr

/-- A notice record (R169); slot `none` is the slot number 15, the whole device. -/
structure Notice where
  seq : Byte
  kind : NoticeKind
  slot : Option Slot
  reason : Reason
  short : Bool
  value : Nat
deriving DecidableEq, Repr

/-- The Notice Queue (R172). -/
structure NoticeQueue where
  records : List Notice
  nextSeq : Byte
  lostCount : Nat
deriving DecidableEq, Repr

/-- What the notice read buffer holds (R174): nothing, the empty record, or a record. -/
inductive NoticeBuffer where
  | empty
  | emptyRecord
  | record (n : Notice)
deriving DecidableEq, Repr

/-- The transaction in progress (R154): whether it writes, and the address its next word concerns. -/
structure Burst where
  write : Bool
  next : BitVec 7
deriving DecidableEq, Repr

/-- The seven budget registers captured together (R20). -/
structure BudgetCapture where
  supplyLimit : Word
  reserve : Word
  available : Word
  committed : Word
  earmark : Word
  free : Word
  excess : Word
deriving DecidableEq, Repr

/-- The Host Port (R154 to R160, R174). `sdo` is the word last driven on SDO. -/
structure HostPort where
  cmd : Word
  arg0 : Word
  arg1 : Word
  armed : Bool
  cmdDone : Bool
  cmdOverrun : Bool
  badWrite : Bool
  intNoticeEn : Bool
  intCmdEn : Bool
  tableSel : Word
  wordPtr : Nat
  tableBuf : List Word
  noticeBuf : NoticeBuffer
  noticePtr : Nat
  budget : Option BudgetCapture
  burst : Option Burst
  sdo : Word
deriving DecidableEq, Repr

end Sys2Proof.Machine
end

