-- ==== Sys2Proof/Config.lean ====
section
/-! DEFINITION. What the manual leaves open: uninterpreted constants of which nothing can be proved. -/

namespace Sys2Proof

/-- The bits of a policy image before its check value, in the order in which the check takes them (R142). The manual gives the
fields but no layout of their bytes ("The host never sees the bytes of an image", chapter 8), so the bits are free. -/
opaque Config.imageBits : Machine.Image → List Bool

/-- The number of words of the record of zeros that a table code of 8 or more captures (R158); the manual states none. -/
opaque Config.unknownRecordWords : Byte → Nat

/-- What TABLE_DATA returns where the word pointer lies beyond a read buffer that is not empty (R158); the manual states none. -/
opaque Config.beyondBuffer : List Word → Nat → Word

end Sys2Proof
end

