-- ==== Sys2Proof/Machine/Defaults.lean ====
section
/-! DEFINITION. The factory defaults and the value each block's state takes at device reset. -/

namespace Sys2Proof.Machine

/-- The factory default slot record (R146, R159). -/
def PolicyRecord.factory : PolicyRecord :=
  { enabled := false, cls := .deferrable, rank := 0, floor := 0, cap := 4095, startMode := .host }

/-- The factory default Global Settings (R146). -/
def Settings.factory : Settings :=
  { supplyLimit := 0, reserve := 0, settleTime := 20, pollPeriod := 20, lineRetries := 2, linkGrace := 50,
    rampTimeout := 40, rampRetries := 1, scanPeriod := 4, overdrawCount := 3, overdrawMargin := 8, passLimit := 4,
    sagLevel := 200, sagHoldoff := 100, backfill := false, preempt := true }

/-- A session record after a device reset, PRESENT inactive (R73). -/
def Session.reset : Session :=
  { state := .vacant, tag := 0, admitFlag := false, desc := none, lastEnd := .none, refusal := .none,
    protoErrors := 0, presence := .idle }

/-- Error counters at 0 (R113). -/
def Counters.zero : Counters :=
  { noResponse := 0, badFormat := 0, badCrc := 0, badKind := 0, badTag := 0, badEcho := 0 }

/-- An SLC after a device reset (R113). -/
def Line.reset : Line :=
  { outSession := none, outRecall := none, outClaim := none, pendingFrame := none, retries := 0, seq := false,
    lost := false, grace := none, poll := none, counters := Counters.zero, phase := .idle, wire := [] }

/-- A ramp record after a device reset (R126). -/
def Ramp.reset : Ramp :=
  { state := .none, tag := 0, cls := .deferrable, retry := 0, timer := 0, gate := false, aux := false }

/-- The Power Path Unit after a device reset (R126). -/
def PowerPath.reset : PowerPath :=
  { slots := PerSlot.all Ramp.reset, queue := [], holder := none, hold := false }

/-- A slot's monitor record after a device reset (R141). -/
def MonSlot.reset : MonSlot :=
  { power := 0, voltage := 0, peak := 0, window := List.replicate 16 0, run := 0, struck := false, clean := 0,
    watchArmed := false, watchTag := 0, watchCount := 0 }

/-- The Draw Monitor after a device reset (R141). The scan timer is started by the load. -/
def Monitor.reset : Monitor :=
  { slots := PerSlot.all MonSlot.reset, bulk := 0, sag := .normal, low := 0, holdoff := 0, scanTimer := 0 }

/-- The Allocator after a device reset (R21, R45). Committed is set by the load. -/
def Allocator.reset : Allocator :=
  { committed := 0, earmark := 0, leases := PerSlot.all none, queue := [], state := .running, sagCondition := false,
    reclaim := none, passDue := false }

/-- The Command Unit after a device reset (R168). Until the load sets the live policy, which nothing reads before
then, it holds the factory defaults (DESIGN CHOICE, log entry 7). -/
def CommandUnit.reset : CommandUnit :=
  { policy := PerSlot.all PolicyRecord.factory, settings := Settings.factory, staging := PolicyRecord.factory,
    result := .ok }

/-- The Notice Queue after a device reset (R176). -/
def NoticeQueue.reset : NoticeQueue := { records := [], nextSeq := 0, lostCount := 0 }

/-- The Host Port after a device reset (R168, R176). -/
def HostPort.reset : HostPort :=
  { cmd := 0, arg0 := 0, arg1 := 0, armed := false, cmdDone := false, cmdOverrun := false, badWrite := false,
    intNoticeEn := false, intCmdEn := false, tableSel := 0, wordPtr := 0, tableBuf := [], noticeBuf := .empty,
    noticePtr := 0, budget := none, burst := none, sdo := 0 }

/-- START_REPORT before the load: every field reads 0 (section 11.2, R145). -/
def StartReport.unloaded : StartReport := { classA := .none, classB := .none, source := .none, generation := 0 }

/-- The Policy Store right after power-on: the copies as the part is first powered, both erased (DESIGN CHOICE, log
entry 6); no load complete (R145, R153). Until the load sets them the pointer names B and the generation is 0, what
the load gives when no copy is VALID (R145; DESIGN CHOICE, log entry 7). -/
def PolicyStore.reset : PolicyStore :=
  { copyA := .blank, copyB := .blank, active := .b, activeGen := 0, state := .idle, snapshot := none,
    discard := false, report := StartReport.unloaded, startDone := false }

end Sys2Proof.Machine
end

