-- ==== Sys2Proof/Machine/State.lean ====
section
/-! DEFINITION. The state of the UB8, one field for each block that owns state, the pins it is told of, the happenings raised inside it and the queue of waiting commands. -/

namespace Sys2Proof.Machine

/-- The whole state. `present` is the level of the PRESENT inputs (`true` active). `raised` holds the happenings that one
block has presented to another and that have not been taken yet (R81, R128), oldest first. `pending` holds the
commands waiting at the part, first in, first out. -/
structure State where
  host : HostPort
  cmd : CommandUnit
  alloc : Allocator
  sess : PerSlot Session
  line : PerSlot Line
  power : PowerPath
  mon : Monitor
  store : PolicyStore
  notices : NoticeQueue
  present : PerSlot Bool
  raised : List Instr
  pending : List Instr
deriving DecidableEq, Repr

/-- No command of the UB8 stops the part with a fault: the manual describes none, so no constructor is needed. -/
inductive Fault where
deriving DecidableEq, Repr

/-- Why a command has no meaning. -/
inductive Refusal where
  /-- Raised by `exec` for a command whose meaning is not written yet; safe: nothing is claimed of it. No arm raises it. -/
  | notModelled (mnemonic : String)
deriving DecidableEq, Repr

/-- The part right after a power-on reset: every block holds its reset state and the policy load is under way (R144).
The command POLICY_LOAD completes the load. -/
def State.reset : State :=
  { host := HostPort.reset, cmd := CommandUnit.reset, alloc := Allocator.reset, sess := PerSlot.all Session.reset,
    line := PerSlot.all Line.reset, power := PowerPath.reset, mon := Monitor.reset, store := PolicyStore.reset,
    notices := NoticeQueue.reset, present := PerSlot.all false, raised := [], pending := [] }

end Sys2Proof.Machine
end

