-- ==== Sys2Proof/Machine/Ops.lean ====
section
/-! DEFINITION. The named operations every meaning is built from: per-slot access, the commitment and the committed counter, notices, the outbox, the main path and the aux rail, leaving the Demand Queue, and the end of a session. -/

namespace Sys2Proof.Machine

/-! ### Access -/

/-- The live slot policy record of slot `k`. -/
def State.policyOf (s : State) (k : Slot) : PolicyRecord := s.cmd.policy.get k

/-- The Global Settings in force. -/
def State.settings (s : State) : Settings := s.cmd.settings

/-- The session record of slot `k`. -/
def State.sessOf (s : State) (k : Slot) : Session := s.sess.get k

/-- The lease of slot `k`, if it has one. -/
def State.leaseOf (s : State) (k : Slot) : Option Lease := s.alloc.leases.get k

/-- The SLC of slot `k`. -/
def State.lineOf (s : State) (k : Slot) : Line := s.line.get k

/-- The ramp record of slot `k`. -/
def State.rampOf (s : State) (k : Slot) : Ramp := s.power.slots.get k

/-- The monitor record of slot `k`. -/
def State.monOf (s : State) (k : Slot) : MonSlot := s.mon.slots.get k

/-- The Demand Queue entry of slot `k`, if it has one; a slot has at most one (R23). -/
def State.entryOf (s : State) (k : Slot) : Option Entry := s.alloc.queue.find? (fun e => e.slot == k)

/-- The session record of slot `k` changed by `f`. -/
def State.modSess (k : Slot) (f : Session → Session) (s : State) : State :=
  { s with sess := s.sess.set k (f (s.sess.get k)) }

/-- The SLC of slot `k` changed by `f`. -/
def State.modLine (k : Slot) (f : Line → Line) (s : State) : State :=
  { s with line := s.line.set k (f (s.line.get k)) }

/-- The ramp record of slot `k` changed by `f`. -/
def State.modRamp (k : Slot) (f : Ramp → Ramp) (s : State) : State :=
  { s with power := { s.power with slots := s.power.slots.set k (f (s.power.slots.get k)) } }

/-- The monitor record of slot `k` changed by `f`. -/
def State.modMon (k : Slot) (f : MonSlot → MonSlot) (s : State) : State :=
  { s with mon := { s.mon with slots := s.mon.slots.set k (f (s.mon.slots.get k)) } }

/-- The Host Port changed by `f`. -/
def State.modHost (f : HostPort → HostPort) (s : State) : State := { s with host := f s.host }

/-- The Global Settings changed by `f`. -/
def State.modSettings (f : Settings → Settings) (s : State) : State :=
  { s with cmd := { s.cmd with settings := f s.cmd.settings } }

/-- The Policy Store changed by `f`. -/
def State.modStore (f : PolicyStore → PolicyStore) (s : State) : State := { s with store := f s.store }

/-- The Demand Queue replaced by `q`. -/
def State.withQueue (q : List Entry) (s : State) : State := { s with alloc := { s.alloc with queue := q } }

/-- Records that a cause of R37 has arisen in this happening, when `b` holds. -/
def State.wantPass (b : Bool) (s : State) : State :=
  { s with alloc := { s.alloc with passDue := s.alloc.passDue || b } }

/-- `c` is no longer among the happenings raised and not yet taken. -/
def State.taken (c : Instr) (s : State) : State := { s with raised := s.raised.erase c }

/-- `f`, once the policy load is complete: until then every block holds its reset state (R144). -/
def State.whenLoaded (f : State → State) (s : State) : State := if s.store.startDone then f s else s

/-! ### Session states -/

/-- A session is open (R74). -/
def SessState.isOpen : SessState → Bool
  | .standby | .rampWait | .ramping | .on => true
  | .vacant | .barred | .listening | .rejected | .faulted => false

/-- The aux rail is on (R74). -/
def SessState.auxOn : SessState → Bool
  | .vacant | .barred => false
  | .listening | .rejected | .standby | .rampWait | .ramping | .on | .faulted => true

/-- The main gate is on (R74, R116). -/
def SessState.gateOn : SessState → Bool
  | .ramping | .on => true
  | .vacant | .barred | .listening | .rejected | .standby | .rampWait | .faulted => false

/-- A lease is present (R9). -/
def SessState.leased : SessState → Bool
  | .rampWait | .ramping | .on => true
  | .vacant | .barred | .listening | .rejected | .standby | .faulted => false

/-- An empty outbox is followed by POLL or PROBE (R102). -/
def SessState.polls : SessState → Bool
  | .listening | .standby | .rampWait | .ramping | .on => true
  | .vacant | .barred | .rejected | .faulted => false

/-- The tag a frame to slot `k` bears: the session's while one is open, else 0 (R88, R97). -/
def State.frameTag (s : State) (k : Slot) : Byte :=
  if (s.sessOf k).state.isOpen then (s.sessOf k).tag else 0

/-- The reason that names a queue entry's origin (R171). -/
def EntryOrigin.reason : EntryOrigin → Reason
  | .claim => .claim
  | .bringup => .bringup
  | .restore => .restore
  | .host => .host

/-- The reason that names a recall's origin (R171). -/
def RecallOrigin.reason : RecallOrigin → Reason
  | .preempt => .preempt
  | .shed => .shed
  | .host => .host
  | .policy => .policy
  | .overdraw => .overdraw

/-! ### Tiers and draws -/

/-- The draw of tier `t` of a descriptor, in qW; tier 0 draws 0 (R67, section 1.3). -/
def Descriptor.drawOf (d : Descriptor) (t : Nat) : Nat :=
  if t = 0 then 0 else (d.draws[t - 1]?.getD 0).toNat

/-- The number of tiers of a descriptor. -/
def Descriptor.tiers (d : Descriptor) : Nat := d.draws.length

/-- draw(t) of the session of slot `k`. -/
def State.drawOf (s : State) (k : Slot) (t : Nat) : Nat :=
  match (s.sessOf k).desc with
  | none => 0
  | some d => d.drawOf t

/-- n, the number of tiers of the session of slot `k`. -/
def State.tiersOf (s : State) (k : Slot) : Nat :=
  match (s.sessOf k).desc with
  | none => 0
  | some d => d.tiers

/-- The preferred tier; an absent one counts as n (R80). -/
def Descriptor.preferredTier (d : Descriptor) : Nat :=
  if d.preferred = 0 then d.tiers else d.preferred.toNat

/-- The highest tier up to `n` that `ok` accepts, or 0 when it accepts none. -/
def highestTier (ok : Nat → Bool) : Nat → Nat
  | 0 => 0
  | n + 1 => if ok (n + 1) then n + 1 else highestTier ok n

/-! ### The budget -/

/-- Available (R1). -/
def State.available (s : State) : Nat := s.settings.supplyLimit - s.settings.reserve

/-- A policy record's floor, counted only when the slot is enabled (R3). -/
def PolicyRecord.floorTerm (r : PolicyRecord) : Nat := if r.enabled then r.floor else 0

/-- The floor of slot `k` where it counts. -/
def State.floorOf (s : State) (k : Slot) : Nat := (s.policyOf k).floorTerm

/-- The target draw of a RAISE in flight, 0 without one. -/
def Transition.raiseDraw : Option Transition → Nat
  | some (.raise _ d _) => d
  | some (.lower _ _ _ _) => 0
  | none => 0

/-- What a lease adds to a commitment: granted draw and RAISE target draw (R3). -/
def Lease.term : Option Lease → Nat
  | none => 0
  | some l => max l.draw (Transition.raiseDraw l.trans)

/-- The commitment of slot `k` (R3). -/
def State.commitment (s : State) (k : Slot) : Nat := max (s.floorOf k) (Lease.term (s.leaseOf k))

/-- A sum over the eight slots. -/
def sumSlots (f : Slot → Nat) : Nat := f 0 + f 1 + f 2 + f 3 + f 4 + f 5 + f 6 + f 7

/-- The sum of the floors of enabled slots (R2). -/
def State.floorSum (s : State) : Nat := sumSlots s.floorOf

/-- Free, signed (R7). -/
def State.free (s : State) : Int := (s.available : Int) - s.alloc.committed - s.alloc.earmark

/-- `f`, which changes a term of slot `k`, with committed following the slot's commitment by the difference within the
same happening (R4). A fall is a cause of R37. -/
def State.withCommit (k : Slot) (f : State → State) (s : State) : State :=
  let t := f s
  { t with alloc := { t.alloc with
      committed := t.alloc.committed + t.commitment k - s.commitment k
      passDue := t.alloc.passDue || decide (t.commitment k < s.commitment k) } }

/-- The lease entry of slot `k` becomes `l`; committed follows (R4, R5). -/
def State.setLease (k : Slot) (l : Option Lease) (s : State) : State :=
  s.withCommit k (fun s => { s with alloc := { s.alloc with leases := s.alloc.leases.set k l } })

/-- The live policy record of slot `k` becomes `r`; committed follows (R4, R5). -/
def State.setPolicy (k : Slot) (r : PolicyRecord) (s : State) : State :=
  s.withCommit k (fun s => { s with cmd := { s.cmd with policy := s.cmd.policy.set k r } })

/-! ### Notices -/

/-- A post taken by the Notice Queue (R172): it consumes a sequence number, and joins the tail or, when 32 records
stand, is discarded and counted in LOST up to 255. -/
def NoticeQueue.take (q : NoticeQueue) (kind : NoticeKind) (slot : Option Slot) (reason : Reason) (short : Bool)
    (value : Nat) : NoticeQueue :=
  if q.records.length < 32 then
    { q with
      records := q.records ++ [{ seq := q.nextSeq, kind := kind, slot := slot, reason := reason, short := short, value := value }]
      nextSeq := q.nextSeq + 1 }
  else
    { q with nextSeq := q.nextSeq + 1, lostCount := min 255 (q.lostCount + 1) }

/-- A block posts a notice whose short field is clear. -/
def State.post (kind : NoticeKind) (slot : Option Slot) (reason : Reason) (value : Nat) (s : State) : State :=
  { s with notices := s.notices.take kind slot reason false value }

/-- GRANTED, the one kind that may carry the short mark (R170). -/
def State.postGranted (slot : Slot) (reason : Reason) (short : Bool) (value : Nat) (s : State) : State :=
  { s with notices := s.notices.take .granted (some slot) reason short value }

/-! ### The outbox -/

/-- The message standing in a channel. -/
def Line.chan (l : Line) : Channel → Option DownMsg
  | .session => l.outSession
  | .recall => l.outRecall
  | .claim => l.outClaim

/-- A channel's content replaced by `m`. -/
def Line.setChan (l : Line) (c : Channel) (m : Option DownMsg) : Line :=
  match c with
  | .session => { l with outSession := m }
  | .recall => { l with outRecall := m }
  | .claim => { l with outClaim := m }

/-- The outbox is empty. -/
def Line.outboxEmpty (l : Line) : Bool := l.outSession.isNone && l.outRecall.isNone && l.outClaim.isNone

/-- What becomes of a message when another is queued in its channel (R99): only one that stands or was replaced is replaced. -/
def Standing.replace : Standing → Standing
  | .stands => .replaced
  | .waits => .replaced
  | .replaced => .replaced
  | .removed => .removed

/-- The pending frame's message, if it came from channel `c`, changes its standing (R99, R100). -/
def Line.restand (f : Standing → Standing) (c : Channel) (l : Line) : Line :=
  { l with pendingFrame := l.pendingFrame.map (fun p =>
      if p.frame.chan == some c then { p with message := f p.message } else p) }

/-- A named message leaves its channel without a replacement (R99). -/
def Line.remove (c : Channel) (l : Line) : Line := (l.setChan c none).restand (fun _ => .removed) c

/-- With the link UP and the outbox not empty, an SLC stops its poll timer and, if it is idle, has a frame due (R100). -/
def Line.kick (l : Line) : Line :=
  if l.lost || l.outboxEmpty then l
  else
    { l with
      poll := none
      phase := match l.phase with
        | .idle => .due 0 false
        | .due e byPoll => .due e byPoll
        | .awaiting f e => .awaiting f e
        | .receiving f e => .receiving f e }

/-- A message queued in a channel replaces what stands there (R99). -/
def Line.queue (c : Channel) (m : DownMsg) (l : Line) : Line := ((l.setChan c (some m)).restand Standing.replace c).kick

/-- A SEVER queued in the session channel empties the other two (R99). -/
def Line.queueSever (r : Reason) (l : Line) : Line := ((l.remove .recall).remove .claim).queue .session (.sever r)

/-- A GRANT, HOLD or DENY queued in the claim channel: a GRANT standing there gives way only to another GRANT (R99). -/
def Line.queueClaim (m : DownMsg) (l : Line) : Line :=
  match l.outClaim, m with
  | some (.grant _ _), .grant _ _ => l.queue .claim m
  | some (.grant _ _), _ => l
  | _, _ => l.queue .claim m

/-- The DENY(CANCELLED) of a cancelled RAISE takes the place of its GRANT (R16, R99). -/
def Line.cancelGrant (l : Line) : Line :=
  match l.outClaim with
  | some (.grant _ _) => l.queue .claim (.deny .cancelled)
  | _ => l

/-- A GRANT queued at ramp done is removed unsent when its lease is dropped (R99). -/
def Line.removeGrant (l : Line) : Line :=
  match l.outClaim with
  | some (.grant _ _) => l.remove .claim
  | _ => l

/-- A grant from STANDBY removes an unsent HOLD (R31). -/
def Line.removeHold (l : Line) : Line :=
  match l.outClaim with
  | some (.hold _) => l.remove .claim
  | _ => l

/-- A frame that was due and not begun is due no more. -/
def Line.calm (l : Line) : Line :=
  match l.phase with
  | .due _ _ => { l with phase := .idle }
  | .idle | .awaiting _ _ | .receiving _ _ => l

/-- The line at a session end (R88, R110, R113): all three channels empty, the pending frame given up, the retry count
0, the link UP and the grace timer stopped. A transaction in flight stays, to be judged as usual. -/
def Line.sessionEnded (l : Line) : Line :=
  { l.calm with outSession := none, outRecall := none, outClaim := none, pendingFrame := none, retries := 0,
                lost := false, grace := none, poll := none }

/-- The line as slot state `st` requires on entry (R102): nothing in VACANT and BARRED, where a transaction in flight is
abandoned; the poll timer started in LISTENING; no poll in REJECTED and FAULTED. -/
def Line.enter (st : SessState) (pollPeriod : Nat) (l : Line) : Line :=
  match st with
  | .vacant | .barred => { l.sessionEnded with phase := .idle }
  | .listening => { l.calm with poll := some pollPeriod }
  | .rejected | .faulted => { l.calm with poll := none }
  | .standby | .rampWait | .ramping | .on => l

/-- The session state of slot `k` becomes `st`, with the aux rail (R74) and the line (R102) in the same happening. -/
def State.enter (k : Slot) (st : SessState) (s : State) : State :=
  ((s.modSess k (fun x => { x with state := st })).modRamp k (fun r => { r with aux := st.auxOn })).modLine k
    (Line.enter st s.settings.pollPeriod)

/-! ### The main path -/

/-- Where slot `k` joins the Ramp Queue with class `c` (R117): behind every slot of its class and, if ESSENTIAL, ahead of
every DEFERRABLE slot. -/
def rampInsert (cls : Slot → PowerClass) (k : Slot) (c : PowerClass) : List Slot → List Slot
  | [] => [k]
  | j :: js =>
    if c = .essential ∧ cls j = .deferrable then k :: j :: js else j :: rampInsert cls k c js

/-- Slot `k` joins the Ramp Queue with its record's class and becomes QUEUED (R117). -/
def State.joinRamp (k : Slot) (s : State) : State :=
  ({ s with power := { s.power with
      queue := rampInsert (fun j => (s.rampOf j).cls) k (s.rampOf k).cls s.power.queue } }).modRamp k
    (fun r => { r with state := .queued, timer := 0 })

/-- The Allocator hands a new lease's slot to the Power Path Unit (R10, R117). -/
def State.handToRamp (k : Slot) (tag : Byte) (s : State) : State :=
  (s.modRamp k (fun r => { r with tag := tag, cls := (s.policyOf k).cls, retry := 0 })).joinRamp k

/-- The ramp of slot `k` starts: it leaves the queue for the resource, its gate goes on, its timer starts, its watch is
armed, and the lease and session become RAMPING (R119). -/
def State.startRamp (k : Slot) (s : State) : State :=
  let s := { s with power := { s.power with queue := s.power.queue.filter (fun j => j != k), holder := some k } }
  let s := s.modRamp k (fun r => { r with state := .ramping, gate := true, timer := s.settings.rampTimeout })
  let s := s.modMon k (fun m => { m with watchArmed := true, watchTag := (s.rampOf k).tag, watchCount := 0 })
  s.modSess k (fun x => { x with state := .ramping })

/-- The ramp resource is handed to the head of the Ramp Queue when it is free and the ramp hold is clear (R118). -/
def State.handOn (s : State) : State :=
  match s.power.holder, s.power.hold, s.power.queue with
  | none, false, k :: _ => s.startRamp k
  | _, _, _ => s

/-- The main path of slot `k` is opened and its ramp, if any, is over (R116, R124): the gate goes off, the slot leaves
the Ramp Queue or gives up the resource, the watch is disarmed; the retry count and class are kept. -/
def State.releasePath (k : Slot) (s : State) : State :=
  let s := { s with power := { s.power with
    queue := s.power.queue.filter (fun j => j != k)
    holder := if s.power.holder = some k then none else s.power.holder } }
  let s := s.modRamp k (fun r => { r with state := .none, tag := 0, timer := 0, gate := false })
  s.modMon k (fun m => { m with watchArmed := false })

/-! ### Reclaim -/

/-- Slot `k` holds the reclaim beneficiary's entry: the one that carries the reclaim mark (R56). -/
def State.isBeneficiary (s : State) (k : Slot) : Bool :=
  match s.alloc.reclaim with
  | some r => r.slot == k
  | none => false

/-- The LOWER of slot `k` carries the victim mark (R56, R65). -/
def State.isVictim (s : State) (k : Slot) : Bool :=
  match s.alloc.reclaim with
  | some r => r.victims.contains k
  | none => false

/-- The reclaim ends: mark and victim marks are gone, the whole earmark is free, RECLAIM_END is posted with `outcome`
(R61, R63, R64). -/
def State.endReclaim (outcome : Nat) (s : State) : State :=
  match s.alloc.reclaim with
  | none => s
  | some r =>
    ({ s with alloc := { s.alloc with reclaim := none, earmark := 0, passDue := s.alloc.passDue || decide (0 < s.alloc.earmark) } }).post
      .reclaimEnd (some r.slot) .preempt outcome

/-- The reclaim, if one is active, is abandoned (R63). -/
def State.abandonReclaim (s : State) : State := s.endReclaim 2

/-- The fall `f` at the end of slot `k`'s LOWER: with the victim mark it goes to the earmark up to S, and the slot leaves
the victim set (R6, R60). Otherwise it stays free. -/
def State.creditVictim (k : Slot) (f : Nat) (s : State) : State :=
  match s.alloc.reclaim with
  | none => s
  | some r =>
    if r.victims.contains k then
      { s with alloc := { s.alloc with
          earmark := s.alloc.earmark + min f (r.shortfall - s.alloc.earmark)
          reclaim := some { r with victims := r.victims.filter (fun j => j != k) } } }
    else s

/-! ### Leaving the Demand Queue -/

/-- The position of slot `k`'s entry (R24). -/
def State.positionOf (s : State) (k : Slot) : Nat := s.alloc.queue.findIdx (fun e => e.slot == k)

/-- The entry of slot `k` leaves; the others close up (R24). -/
def State.unqueue (k : Slot) (s : State) : State := s.withQueue (s.alloc.queue.filter (fun e => e.slot != k))

/-- The entry of slot `k`, if any, leaves other than by a grant and without a message; a beneficiary's reclaim is
abandoned and a pass becomes due (R35, R37, R63). -/
def State.removeEntry (k : Slot) (s : State) : State :=
  match s.entryOf k with
  | none => s
  | some _ =>
    let t := (s.unqueue k).wantPass true
    if s.isBeneficiary k then t.abandonReclaim else t

/-- The entry of slot `k`, if any, is removed with a reason: DENY to its module, DENIED with the entry's wanted tier (R35). -/
def State.denyEntry (k : Slot) (r : Reason) (s : State) : State :=
  match s.entryOf k with
  | none => s
  | some e =>
    let t := (((s.unqueue k).wantPass true).modLine k (Line.queueClaim (.deny r))).post .denied (some k) r e.wanted
    if s.isBeneficiary k then t.abandonReclaim else t

/-! ### Dropping a lease, ending a session -/

/-- The outbox at the drop of lease `l` (R12, R54, R99): an unsent RECALL is removed with its LOWER, a RAISE's GRANT gives
way to DENY(CANCELLED), and a GRANT of ramp done is removed. -/
def Line.leaseDropped (l : Lease) (x : Line) : Line :=
  match l.trans with
  | some (.raise _ _ _) => x.cancelGrant
  | some (.lower _ _ _ _) => (x.remove .recall).removeGrant
  | none => x.removeGrant

/-- A lease has a LOWER in flight. -/
def Lease.lowering (l : Lease) : Bool :=
  match l.trans with
  | some (.lower _ _ _ _) => true
  | some (.raise _ _ _) => false
  | none => false

/-- The lease of slot `k`, if any, is dropped (R12): entry and transition go, committed falls to the floor, a marked LOWER's
fall goes to the earmark and a pass follows the end of a LOWER (R18), the outbox is settled, the path is opened (R116) and the
run count is 0 (R134). A drop without a LOWER brings a pass only where committed fell (log entry 44). The session state is for
the cause to set. -/
def State.dropLease (k : Slot) (s : State) : State :=
  match s.leaseOf k with
  | none => s
  | some l =>
    let t := s.setLease k none
    let t := if l.lowering then
        (t.creditVictim k (s.commitment k - t.commitment k)).wantPass true
      else t
    ((t.modLine k (Line.leaseDropped l)).releasePath k).modMon k (fun m => { m with run := 0 })

/-- A session end lifts the strike unless it is the entry to FAULTED; the run count is 0 in every case (R134). -/
def MonSlot.sessionEnded (faulted : Bool) (m : MonSlot) : MonSlot :=
  if faulted then { m with run := 0 } else { m with run := 0, struck := false, clean := 0 }

/-- SEVER is queued at a session end with this cause, where the link is UP (R88). -/
def Reason.severs : Reason → Bool
  | .removed | .moduleRestart | .barred => false
  | _ => true

/-- What a session end does once the lease is gone (R88 steps 2 to 6): the entry leaves, the outbox is emptied, SEVER is
queued where it is due, admit flag and descriptor are cleared (the descriptor is kept in FAULTED), the cause is kept as
last reason and the state becomes `st`. -/
def State.teardown (k : Slot) (cause : Reason) (st : SessState) (s : State) : State :=
  let sever := cause.severs && !(s.lineOf k).lost
  let s := s.removeEntry k
  let s := s.modLine k Line.sessionEnded
  let s := s.modSess k (fun x => { x with admitFlag := false, lastEnd := cause,
                                          desc := if st = .faulted then x.desc else none })
  let s := s.modMon k (MonSlot.sessionEnded (st = .faulted))
  let s := s.enter k st
  if sever then s.modLine k (Line.queueSever cause) else s

/-- The session of slot `k` ends with `cause` and the slot goes to `st`; SESSION_CLOSED carries the ended session's tag (R88). -/
def State.endSession (k : Slot) (cause : Reason) (st : SessState) (s : State) : State :=
  (s.teardown k cause st).post .sessionClosed (some k) cause (s.sessOf k).tag.toNat

/-- Where a slot without a session goes while its module stays seated: LISTENING if enabled, else BARRED (R89, R93). -/
def State.unopened (s : State) (k : Slot) : SessState := if (s.policyOf k).enabled then .listening else .barred

/-- The session of slot `k`, whose lease has gone, settles (R53, R36, R91): it ends BARRED on a disabled slot; otherwise it
stands in STANDBY, and with its admit flag clear its entry is removed NOT_ADMITTED. -/
def State.settle (k : Slot) (s : State) : State :=
  if (s.policyOf k).enabled then
    let t := s.enter k .standby
    if (t.sessOf k).admitFlag then t else t.denyEntry k .notAdmitted
  else s.endSession k .barred .barred

/-- The granted tier of slot `k`, 0 without a lease. -/
def State.grantedTier (s : State) (k : Slot) : Nat :=
  match s.leaseOf k with
  | none => 0
  | some l => l.tier

/-- The entry to FAULTED (R92): the lease is dropped, the session ends with the cause, FAULTED is posted with the dropped
tier and SESSION_CLOSED follows. -/
def State.faultSlot (k : Slot) (cause : Reason) (s : State) : State :=
  (((s.dropLease k).teardown k cause .faulted).post .faulted (some k) cause (s.grantedTier k)).post
    .sessionClosed (some k) cause (s.sessOf k).tag.toNat

end Sys2Proof.Machine
end

