-- ==== Sys2Proof/Machine/Operands.lean ====
section
/-! DEFINITION. Codes and bit layouts of chapter 11: reason, notice, result and kind codes, the slot-line frame with its CRC-8, responses, and the fields of setting words. -/

namespace Sys2Proof.Machine

/-! ### Codes -/

/-- The reason codes (R171). -/
def Reason.code : Reason → Nat
  | .none => 0
  | .claim => 1
  | .bringup => 2
  | .restore => 3
  | .host => 4
  | .policy => 5
  | .preempt => 6
  | .shed => 7
  | .overdraw => 8
  | .recallTimeout => 9
  | .linkTimeout => 10
  | .removed => 11
  | .sag => 12
  | .moduleFault => 13
  | .moduleRestart => 14
  | .rampFail => 15
  | .badList => 16
  | .overCap => 17
  | .notHigher => 18
  | .notAdmitted => 19
  | .inTransition => 20
  | .neverFits => 21
  | .cancelled => 22
  | .barred => 23
  | .yielded => 24

/-- The notice kind codes (R170). -/
def NoticeKind.code : NoticeKind → Nat
  | .start => 1
  | .sessionOpen => 2
  | .sessionRefused => 3
  | .sessionClosed => 4
  | .queued => 5
  | .granted => 6
  | .denied => 7
  | .recallIssued => 8
  | .recallDone => 9
  | .recallSilent => 10
  | .cut => 11
  | .faulted => 12
  | .overdrawStrike => 13
  | .linkLost => 14
  | .linkBack => 15
  | .rampRetry => 16
  | .sagBegin => 17
  | .sagEnd => 18
  | .shedBegin => 19
  | .shedEnd => 20
  | .reclaimBegin => 21
  | .reclaimEnd => 22
  | .storeDone => 23

/-- The result codes (R160). -/
def CmdResult.code : CmdResult → Nat
  | .ok => 0
  | .badSlot => 1
  | .badArg => 2
  | .state => 3
  | .floorConflict => 4
  | .budgetConflict => 5
  | .storeFail => 6

/-- The session state codes of the SESSION table (section 11.3). -/
def SessState.code : SessState → Nat
  | .vacant => 0
  | .barred => 1
  | .listening => 2
  | .rejected => 3
  | .standby => 4
  | .rampWait => 5
  | .ramping => 6
  | .on => 7
  | .faulted => 8

/-- The kind code of a downstream message (section 11.4). -/
def DownMsg.kindCode : DownMsg → Nat
  | .poll => 0x01
  | .probe => 0x02
  | .welcome _ => 0x03
  | .refuse _ => 0x04
  | .sever _ => 0x05
  | .recall _ _ => 0x06
  | .grant _ _ => 0x07
  | .hold _ => 0x08
  | .deny _ => 0x09

/-- A number as a byte. -/
def byteOf (n : Nat) : Byte := BitVec.ofNat 8 n

/-- A number as a register word. -/
def wordOf (n : Nat) : Word := BitVec.ofNat 16 n

/-- The payload bytes of a downstream message, in order (section 11.4). -/
def DownMsg.payload : DownMsg → List Byte
  | .poll => []
  | .probe => []
  | .welcome t => [t]
  | .refuse r => [byteOf r.code]
  | .sever r => [byteOf r.code]
  | .recall t d => [byteOf t, byteOf d]
  | .grant t short => [byteOf t, if short then 1 else 0]
  | .hold p => [byteOf p]
  | .deny r => [byteOf r.code]

/-! ### The frame -/

/-- One bit shifted through the CRC-8 register, polynomial x⁸+x²+x+1. -/
def crc8Bit (c : Byte) : Byte := if c.getLsbD 7 then (c <<< 1) ^^^ 0x07 else c <<< 1

/-- One byte taken into the frame check, most significant bit first (section 11.4). -/
def crc8Byte (c b : Byte) : Byte :=
  crc8Bit (crc8Bit (crc8Bit (crc8Bit (crc8Bit (crc8Bit (crc8Bit (crc8Bit (c ^^^ b))))))))

/-- The frame check of a list of bytes, initial value 0 (section 11.4). -/
def crc8 (bs : List Byte) : Byte := bs.foldl crc8Byte 0

/-- Byte 2 of a frame: the sequence bit in bit 7 and the payload length in bits 4..0; reserved bits are 0 (R177). -/
def seqLenByte (seq : Bool) (len : Nat) : Byte := (if seq then 0x80 else 0) ||| byteOf (len % 32)

/-- The bytes of a frame less its check. -/
def Frame.body (f : Frame) : List Byte :=
  [byteOf f.msg.kindCode, f.tag, seqLenByte f.seq f.msg.payload.length] ++ f.msg.payload

/-- The bytes of a frame in the order they are sent (R95, section 11.4). -/
def Frame.bytes (f : Frame) : List Byte := f.body ++ [crc8 f.body]

/-! ### The check value of a policy image -/

/-- One bit taken into the CRC-16 register, polynomial x¹⁶+x¹²+x⁵+1 (R142). -/
def crc16Bit (c : Word) (b : Bool) : Word := if (c.getLsbD 15 != b) then (c <<< 1) ^^^ 0x1021 else c <<< 1

/-- The CRC-16 of a sequence of bits, initial value 0xFFFF (R142). -/
def crc16 (bs : List Bool) : Word := bs.foldl crc16Bit 0xFFFF

/-- The check value of a policy image (R142), over its bits, which the manual leaves open (log entry 9). -/
def Image.check (i : Image) : Word := crc16 (Config.imageBits i)

/-! ### Responses -/

/-- An upstream message as the SLC reads it (R98). -/
inductive UpMsg where
  | none
  | hello (kind : Word) (serial : BitVec 32) (flags preferred : Byte) (draws : List Word)
  | claim (wanted least : Byte)
  | yieldTier (tier : Byte)
  | ready (tier : Byte)
  | fault (code : Byte)
deriving DecidableEq, Repr

/-- Two bytes, most significant first. -/
def beWord (hi lo : Byte) : Word := hi ++ lo

/-- The draws of a HELLO, two bytes each. -/
def drawsOf : List Byte → List Word
  | hi :: lo :: rest => beWord hi lo :: drawsOf rest
  | _ => []

/-- The payload length kind `k` requires, or none for a kind that is not upstream (R98, section 11.4). A HELLO's depends on
the tier count its ninth byte declares; one too short to hold that byte declares 0 tiers. -/
def upLength (k : Nat) (payload : List Byte) : Option Nat :=
  match k with
  | 0x40 => some 0
  | 0x41 => some (9 + 2 * (payload[8]?.getD 0).toNat)
  | 0x42 => some 2
  | 0x43 => some 1
  | 0x44 => some 1
  | 0x45 => some 1
  | _ => none

/-- The upstream message of a kind and a payload of the length that kind requires (section 11.4). -/
def upMessage (k : Nat) (payload : List Byte) : Option UpMsg :=
  match k, payload with
  | 0x40, [] => some .none
  | 0x41, k1 :: k0 :: s3 :: s2 :: s1 :: s0 :: flags :: pref :: _ :: draws =>
    some (.hello (beWord k1 k0) (beWord s3 s2 ++ beWord s1 s0) flags pref (drawsOf draws))
  | 0x42, [w, l] => some (.claim w l)
  | 0x43, [t] => some (.yieldTier t)
  | 0x44, [t] => some (.ready t)
  | 0x45, [c] => some (.fault c)
  | _, _ => none

/-- The two bytes of a word, most significant first. -/
def wordBytes (w : Word) : List Byte := [w.extractLsb' 8 8, w.extractLsb' 0 8]

/-- The kind code of an upstream message (section 11.4). -/
def UpMsg.kindCode : UpMsg → Nat
  | .none => 0x40
  | .hello _ _ _ _ _ => 0x41
  | .claim _ _ => 0x42
  | .yieldTier _ => 0x43
  | .ready _ => 0x44
  | .fault _ => 0x45

/-- The payload bytes of an upstream message, in order (section 11.4). -/
def UpMsg.payload : UpMsg → List Byte
  | .none => []
  | .hello kind serial flags preferred draws =>
    wordBytes kind ++ wordBytes (serial.extractLsb' 16 16) ++ wordBytes (serial.extractLsb' 0 16) ++
      [flags, preferred, byteOf draws.length] ++ draws.flatMap wordBytes
  | .claim w l => [w, l]
  | .yieldTier t => [t]
  | .ready t => [t]
  | .fault c => [c]

/-- The bytes of a response less its check. -/
def UpMsg.body (m : UpMsg) (tag : Byte) (seq : Bool) : List Byte :=
  [byteOf m.kindCode, tag, seqLenByte seq m.payload.length] ++ m.payload

/-- A response as a module sends it (R95, R98, section 11.4). -/
def UpMsg.bytes (m : UpMsg) (tag : Byte) (seq : Bool) : List Byte := m.body tag seq ++ [crc8 (m.body tag seq)]

/-- How a response is judged (R101). -/
inductive Judgement where
  /-- The response is not complete: fewer bytes than its length field gives have arrived. -/
  | incomplete
  | failed (kind : FailKind)
  | valid (msg : UpMsg)
deriving DecidableEq, Repr

/-- The payload length field of a response: bits 4..0 of its third byte; the reserved bits are not checked (R177). -/
def lengthField (bs : List Byte) : Nat := (bs[2]?.getD 0).toNat % 32

/-- The checks of R101 on a response to frame `f`, in their order. Check 1, timing, is the business of the timeouts. A length field
of 22 to 31 fails as BAD_FORMAT (section 11.4) as soon as its byte is there, before the response could be complete: when it is
judged is the model's choice (DESIGN CHOICE, log entry 46). -/
def judge (f : Frame) (bs : List Byte) (lowStop : Bool) : Judgement :=
  let len := lengthField bs
  let payload := (bs.drop 3).take len
  let kind := (bs[0]?.getD 0).toNat
  let tag := bs[1]?.getD 0
  if lowStop then .failed .badFormat
  else if bs.length < 3 then .incomplete
  else if 21 < len then .failed .badFormat
  else if bs.length < 4 + len then .incomplete
  else if crc8 (bs.take (3 + len)) ≠ bs[3 + len]?.getD 0 then .failed .badCrc
  else
    match upLength kind payload with
    | none => .failed .badKind
    | some n =>
      if len ≠ n then .failed .badFormat
      else if tag ≠ f.tag ∧ ¬ (kind = 0x41 ∧ tag = 0) then .failed .badTag
      else if (bs[2]?.getD 0).getLsbD 7 ≠ f.seq then .failed .badEcho
      else
        match upMessage kind payload with
        | some m => .valid m
        | none => .failed .badFormat

/-- The happening that hands an upstream message of slot `k`, tagged with its frame's tag, to the Session Manager (R81, R103). -/
def UpMsg.happening (k : Slot) (tag : Byte) : UpMsg → Instr
  | .none => .noneMessage k tag
  | .hello kind serial flags pref draws => .hello k tag kind serial flags pref draws
  | .claim w l => .claim k tag w l
  | .yieldTier t => .yieldTier k tag t
  | .ready t => .ready k tag t
  | .fault c => .moduleFault k tag c

/-! ### Fields of setting words -/

/-- Bits `lo` .. `lo + n − 1` of a word, as a number. -/
def bitField (w : Word) (lo n : Nat) : Nat := (w.toNat >>> lo) % 2 ^ n

/-- The bits of a setting register that a field names (section 11.2); the others are reserved (R177). -/
def settingMask : SettingReg → Word
  | .settleTime => 0x00FF
  | .pollPeriod => 0x00FF
  | .linkCtrl => 0xFF03
  | .rampCtrl => 0x03FF
  | .monCtrl => 0x0F03
  | .overdrawMargin => 0x03FF
  | .sagLevel => 0x03FF
  | .sagHoldoff => 0x00FF

/-- SCAN_PERIOD in ms of its two-bit code (section 11.2). -/
def scanPeriodOf (code : Nat) : Nat :=
  match code with
  | 0 => 2
  | 1 => 4
  | 2 => 8
  | _ => 16

/-- The code of a SCAN_PERIOD in ms. -/
def scanPeriodCode (ms : Nat) : Nat :=
  match ms with
  | 2 => 0
  | 4 => 1
  | 8 => 2
  | _ => 3

/-- The settings as a word written to a setting register gives them, or none when a field is out of range or a reserved bit
is 1 (R156, R177). -/
def settingApply (r : SettingReg) (w : Word) (x : Settings) : Option Settings :=
  if w &&& ~~~ settingMask r ≠ 0 then none
  else
    match r with
    | .settleTime =>
      if 1 ≤ bitField w 0 8 then some { x with settleTime := bitField w 0 8 } else none
    | .pollPeriod =>
      if 5 ≤ bitField w 0 8 then some { x with pollPeriod := bitField w 0 8 } else none
    | .linkCtrl =>
      if 5 ≤ bitField w 8 8 then some { x with lineRetries := bitField w 0 2, linkGrace := bitField w 8 8 } else none
    | .rampCtrl =>
      if 5 ≤ bitField w 0 8 then some { x with rampTimeout := bitField w 0 8, rampRetries := bitField w 8 2 } else none
    | .monCtrl =>
      if 1 ≤ bitField w 8 4 then
        some { x with scanPeriod := scanPeriodOf (bitField w 0 2), overdrawCount := bitField w 8 4 } else none
    | .overdrawMargin => some { x with overdrawMargin := bitField w 0 10 }
    | .sagLevel => if bitField w 0 10 ≤ 1000 then some { x with sagLevel := bitField w 0 10 } else none
    | .sagHoldoff =>
      if 10 ≤ bitField w 0 8 then some { x with sagHoldoff := bitField w 0 8 } else none

/-- The setting register at an address, PASS_LIMIT apart (section 11.2). -/
def settingAt (addr : BitVec 7) : Option SettingReg :=
  match addr.toNat with
  | 0x0F => some .settleTime
  | 0x10 => some .pollPeriod
  | 0x11 => some .linkCtrl
  | 0x12 => some .rampCtrl
  | 0x13 => some .monCtrl
  | 0x14 => some .overdrawMargin
  | 0x16 => some .sagLevel
  | 0x17 => some .sagHoldoff
  | _ => none

/-- The address of a setting register (section 11.2). -/
def settingAddr : SettingReg → BitVec 7
  | .settleTime => 0x0F
  | .pollPeriod => 0x10
  | .linkCtrl => 0x11
  | .rampCtrl => 0x12
  | .monCtrl => 0x13
  | .overdrawMargin => 0x14
  | .sagLevel => 0x16
  | .sagHoldoff => 0x17

/-- The address the next word of a burst concerns (R154): one higher, wrapping from 0x7F to 0x00, except that it stays at
TABLE_DATA and NOTICE_DATA. -/
def nextAddr (addr : BitVec 7) : BitVec 7 := if addr = 0x19 ∨ addr = 0x1A then addr else addr + 1

/-! ### Table selection -/

/-- The words of the record of a table code (R158, section 11.3). -/
def recordWords (code : Byte) : Nat :=
  match code.toNat with
  | 0 => 3
  | 1 => 3
  | 2 => 7
  | 3 => 5
  | 4 => 3
  | 5 => 3
  | 6 => 6
  | 7 => 10
  | _ => Config.unknownRecordWords code

/-- The table code of TABLE_SEL. -/
def selCode (sel : Word) : Byte := byteOf (bitField sel 8 8)

/-- The index of TABLE_SEL. -/
def selIndex (sel : Word) : Nat := bitField sel 0 8

/-- A slot number 0..7, or none. -/
def slotOf? (n : Nat) : Option Slot := if h : n < 8 then some ⟨n, h⟩ else none

end Sys2Proof.Machine
end

