-- ==== Sys2Proof/Machine/Clock.lean ====
section
/-! DEFINITION. The block's own time: which timer has run out, and one millisecond passing on all of them (DESIGN CHOICE, log entries 1, 15 and 31). -/

namespace Sys2Proof.Machine

/-- The presence timer's event of slot `k`: 50 ms toward insertion (R75), 2 ms toward removal (R76). -/
def Presence.due (k : Slot) : Presence → Option Instr
  | .idle => none
  | .toInsertion e => if 50 ≤ e then some (.insertion k) else none
  | .toRemoval e => if 2 ≤ e then some (.removal k) else none

/-- The ramp record's event of slot `k` (R121, R122). -/
def Ramp.due (k : Slot) (r : Ramp) : Option Instr :=
  match r.state with
  | .ramping => if r.timer = 0 then some (.rampTimeout k) else none
  | .backoff => if r.timer = 0 then some (.backoffEnd k) else none
  | .none => Option.none
  | .queued => Option.none

/-- The recall deadline of slot `k` (R51, R52). -/
def Lease.due (k : Slot) (l : Option Lease) : Option Instr :=
  match l with
  | none => none
  | some l =>
    match l.trans with
    | some (.lower _ _ _ 0) => some (.recallDeadline k)
    | _ => none

/-- The line's events of slot `k`: 3 ms without a gap (R96), 1 ms to the response's begin and 3 ms to its end (R95), then
link grace (R110) and the poll timer (R102). -/
def Line.due (k : Slot) (l : Line) : Option Instr :=
  let phase : Option Instr := match l.phase with
    | .idle => none
    | .due e _ => if 3 ≤ e then some (.lineGapTimeout k) else none
    | .awaiting _ e => if 1 ≤ e then some (.responseTimeout k) else none
    | .receiving _ e => if 3 ≤ e then some (.responseTimeout k) else none
  let grace : Option Instr := if l.grace = some 0 then some (.linkGraceExpiry k) else none
  let poll : Option Instr := if l.poll = some 0 then some (.pollTimer k) else none
  phase <|> grace <|> poll

/-- The first event of slot `k` whose timer has run out. -/
def State.slotDue (s : State) (k : Slot) : Option Instr :=
  (s.sessOf k).presence.due k <|> (s.rampOf k).due k <|> Lease.due k (s.leaseOf k) <|> (s.lineOf k).due k

/-- The event whose timer has run out that is taken next: the hold-off's end (R139), else the lowest slot's first. -/
def State.dueEvent (s : State) : Option Instr :=
  if s.mon.sag = .holdoff ∧ s.mon.holdoff = 0 then some .sagEnd else allSlots.findSome? s.slotDue

/-! ### One millisecond -/

/-- One millisecond on a presence timer. -/
def Presence.tick : Presence → Presence
  | .idle => .idle
  | .toInsertion e => .toInsertion (e + 1)
  | .toRemoval e => .toRemoval (e + 1)

/-- One millisecond on a deadline. -/
def Lease.tick (l : Lease) : Lease :=
  match l.trans with
  | some (.lower t d o left) => { l with trans := some (.lower t d o (left - 1)) }
  | _ => l

/-- One millisecond on what an SLC is doing. -/
def LinePhase.tick : LinePhase → LinePhase
  | .idle => .idle
  | .due e p => .due (e + 1) p
  | .awaiting f e => .awaiting f (e + 1)
  | .receiving f e => .receiving f (e + 1)

/-- One millisecond on an SLC's timers. -/
def Line.tick (l : Line) : Line :=
  { l with grace := l.grace.map (fun n => n - 1), poll := l.poll.map (fun n => n - 1), phase := l.phase.tick }

/-- One millisecond passes on every running timer. -/
def State.tick (s : State) : State :=
  { s with
    sess := s.sess.map (fun x => { x with presence := x.presence.tick })
    alloc := { s.alloc with leases := s.alloc.leases.map (Option.map Lease.tick) }
    line := s.line.map Line.tick
    power := { s.power with slots := s.power.slots.map (fun r => { r with timer := r.timer - 1 }) }
    mon := { s.mon with holdoff := s.mon.holdoff - 1, scanTimer := s.mon.scanTimer - 1 } }

end Sys2Proof.Machine
end

