-- ==== Sys2Proof/Machine/Claims.lean ====
section
/-! DEFINITION. Taking a claim of any origin: the admission checks, the join in queue order, replacement and merging (chapter 2, sections 2.1 to 2.3). -/

namespace Sys2Proof.Machine

/-- The granted tier a claim is measured against: 0 in STANDBY, a LOWER's target while one is in flight, else the lease's (R27). -/
def State.claimTier (s : State) (k : Slot) : Nat :=
  match s.leaseOf k with
  | none => 0
  | some l =>
    match l.trans with
    | some (.lower t _ _ _) => t
    | some (.raise _ _ _) => l.tier
    | none => l.tier

/-- The slot's lease carries a RAISE. -/
def State.raising (s : State) (k : Slot) : Bool :=
  match s.leaseOf k with
  | none => false
  | some l =>
    match l.trans with
    | some (.raise _ _ _) => true
    | some (.lower _ _ _ _) => false
    | none => false

/-- The slot's lease carries a LOWER. -/
def State.lowering (s : State) (k : Slot) : Bool :=
  match s.leaseOf k with
  | none => false
  | some l => l.lowering

/-- Check 6 fails: the part of draw(least) above the floor exceeds what the floors of enabled slots leave of available (R27). -/
def State.neverFits (s : State) (k : Slot) (least : Nat) : Bool :=
  decide (s.available + s.floorOf k < max (s.floorOf k) (s.drawOf k least) + s.floorSum)

/-- Check 5 fails (R27). -/
def State.overCap (s : State) (k : Slot) (least : Nat) : Bool := decide ((s.policyOf k).cap < s.drawOf k least)

/-- The first admission check that fails, with its reason (R27). -/
def State.admission (s : State) (k : Slot) (wanted least : Nat) : Option Reason :=
  if wanted < 1 ∨ s.tiersOf k < wanted ∨ least < 1 ∨ s.tiersOf k < least ∨ wanted < least then some .badList
  else if (s.sessOf k).admitFlag = false then some .notAdmitted
  else if s.raising k then some .inTransition
  else if wanted ≤ s.claimTier k then some .notHigher
  else if s.overCap k least then some .overCap
  else if s.neverFits k least then some .neverFits
  else none

/-! ### Queue order -/

/-- ESSENTIAL ranks above DEFERRABLE. -/
def PowerClass.weight : PowerClass → Nat
  | .deferrable => 0
  | .essential => 1

/-- The key of `a` is higher than or equal to the key of `b` (R24). -/
def Entry.keyGe (a b : Entry) : Bool :=
  decide (b.cls.weight < a.cls.weight) || (decide (a.cls.weight = b.cls.weight) && decide (b.rank ≤ a.rank))

/-- `e` placed directly after the last entry whose key is higher than or equal to its own, or at the head (R24). -/
def insertEntry (e : Entry) : List Entry → List Entry
  | [] => [e]
  | x :: xs => if (x :: xs).any (fun y => y.keyGe e) then x :: insertEntry e xs else e :: x :: xs

/-- The entry of slot `k` takes a new origin and new tiers, in its place (R29). -/
def State.retier (k : Slot) (origin : EntryOrigin) (wanted least : Nat) (s : State) : State :=
  s.withQueue (s.alloc.queue.map (fun x =>
    if x.slot == k then { x with origin := origin, wanted := wanted, least := least } else x))

/-- `e` joins the queue by its key. -/
def State.joinEntry (e : Entry) (s : State) : State := s.withQueue (insertEntry e s.alloc.queue)

/-! ### Need and shortfall -/

/-- need(t) (R39). -/
def State.need (s : State) (k : Slot) (t : Nat) : Int :=
  (max (s.floorOf k) (s.drawOf k t) : Nat) - (s.commitment k : Int)

/-- The lowest tier considered: least, or one above the granted tier of an ON lease when that is higher (R39). That it is one
above the granted tier also where no tier up to wanted is above it is the model's choice (DESIGN CHOICE, log entry 50). -/
def State.lowestTier (s : State) (e : Entry) : Nat :=
  match s.leaseOf e.slot with
  | none => e.least
  | some l => max e.least (l.tier + 1)

/-- The shortfall of an entry that does not fit (R39). -/
def State.shortfall (s : State) (e : Entry) : Int := s.need e.slot (s.lowestTier e) - s.free

/-- A downward replacement of the beneficiary's claim: S becomes the smaller of the old S and the new shortfall, at least
1, and earmark above it becomes free (R29). Under a LOWER the new wanted tier may lie at or below the granted one; what the new
shortfall is then is the model's choice (DESIGN CHOICE, log entry 50). -/
def State.lowerShortfall (e : Entry) (s : State) : State :=
  match s.alloc.reclaim with
  | none => s
  | some r =>
    let n := max 1 (min (r.shortfall : Int) (s.shortfall e)).toNat
    { s with alloc := { s.alloc with reclaim := some { r with shortfall := n }, earmark := min s.alloc.earmark n } }

/-! ### Taking a claim -/

/-- A claim that failed a check with reason `r` (R26, R29, R34): the entry it would have replaced is removed; DENY goes to
the module unless a HOST claim found no entry; DENIED carries the claim's wanted tier; a beneficiary's reclaim is abandoned. -/
def State.refuseClaim (k : Slot) (origin : EntryOrigin) (r : Reason) (wanted : Nat) (s : State) : State :=
  let had := (s.entryOf k).isSome
  let ben := s.isBeneficiary k && had
  let t := if had then (s.unqueue k).wantPass true else s
  let t := if origin = .host ∧ had = false then t else t.modLine k (Line.queueClaim (.deny r))
  let t := t.post .denied (some k) r wanted
  if ben then t.abandonReclaim else t

/-- A claim of slot `k` is taken (R26): checked, then joined, put in the place of the slot's entry (R29, R34), or merged
into it (R33), with QUEUED or DENIED posted. The pass and the answer of the happening are not part of this. -/
def State.takeClaim (k : Slot) (origin : EntryOrigin) (wanted least : Nat) (s : State) : State :=
  match s.entryOf k with
  | none =>
    match s.admission k wanted least with
    | some r => s.refuseClaim k origin r wanted
    | none =>
      let e : Entry := { slot := k, tag := (s.sessOf k).tag, origin := origin, wanted := wanted, least := least,
                         cls := (s.policyOf k).cls, rank := (s.policyOf k).rank, passCount := 0 }
      let t := (s.joinEntry e).wantPass true
      t.post .queued (some k) origin.reason (t.positionOf k)
  | some old =>
    let wanted := if origin = .restore then max old.wanted wanted else wanted
    match s.admission k wanted least with
    | some r => s.refuseClaim k origin r wanted
    | none =>
      let t := (s.retier k origin wanted least).wantPass true
      let t := t.post .queued (some k) origin.reason (t.positionOf k)
      if origin = .restore ∨ s.isBeneficiary k = false then t
      else if old.wanted < wanted then t.abandonReclaim
      else t.lowerShortfall { old with origin := origin, wanted := wanted, least := least }

/-- A RESTORE entry is raised for a lease lost at tier `t`, unless the admit flag is clear (R33). -/
def State.restore (k : Slot) (t : Nat) (s : State) : State :=
  if (s.sessOf k).admitFlag then s.takeClaim k .restore t 1 else s

/-- A BRINGUP entry is raised with wanted = the preferred tier and least = 1 (R32). -/
def State.bringup (k : Slot) (s : State) : State :=
  match (s.sessOf k).desc with
  | none => s
  | some d => s.takeClaim k .bringup d.preferredTier 1

end Sys2Proof.Machine
end

