-- ==== Sys2Proof/Machine/Recall.lean ====
section
/-! DEFINITION. Recall: issuing, supersession, cancellation of a RAISE, and the ends of a LOWER (chapter 3, sections 3.1 and 3.2; R14 to R18). -/

namespace Sys2Proof.Machine

/-- The deadline field of a RECALL: 10 ms units rounded up, at least 1 (R46, R97). -/
def recallField (ms : Nat) : Nat := max 1 ((ms + 9) / 10)

/-- A RAISE, if one is in flight on slot `k`, is cancelled (R16): its record goes, committed falls, and its GRANT gives way
to DENY(CANCELLED). -/
def State.cancelRaise (k : Slot) (s : State) : State :=
  match s.leaseOf k with
  | none => s
  | some l =>
    if s.raising k then (s.setLease k (some { l with trans := none })).modLine k Line.cancelGrant else s

/-- A RAISE completes at the delivery of its GRANT (R15), reported with the frame's tag (R9). -/
def State.completeRaise (k : Slot) (tag : Byte) (short : Bool) (s : State) : State :=
  match s.leaseOf k with
  | none => s
  | some l =>
    match l.trans with
    | some (.raise t d _) =>
      if l.tag = tag then s.setLease k (some { l with tier := t, draw := d, short := short, trans := none }) else s
    | some (.lower _ _ _ _) => s
    | none => s

/-- A LOWER to `target` with `deadline` ms remaining stands on lease `l`; RECALL is queued and RECALL_ISSUED posted (R46, R48). -/
def State.putLower (k : Slot) (l : Lease) (target : Nat) (origin : RecallOrigin) (deadline : Nat) (s : State) : State :=
  ((s.setLease k (some { l with trans := some (.lower target (s.drawOf k target) origin deadline) })).modLine k
    (Line.queue .recall (.recall target (recallField deadline)))).post .recallIssued (some k) origin.reason target

/-- A recall on a lease in ON that carries no RAISE (R46, R48): issued when its target lies below the granted tier, on a
LOWER in flight as a supersession. -/
def State.recallOn (k : Slot) (target : Nat) (origin : RecallOrigin) (s : State) : State :=
  match s.leaseOf k with
  | none => s
  | some l =>
    if target < l.tier then
      match l.trans with
      | some (.lower old _ _ left) =>
        s.putLower k l (min old target) origin (if target < old then s.settings.settleTime * 10 else left)
      | some (.raise _ _ _) => s.putLower k l target origin (s.settings.settleTime * 10)
      | none => s.putLower k l target origin (s.settings.settleTime * 10)
    else s

/-- A ramp-phase lease is dropped by a recall of origin HOST or POLICY (R49): CUT carries the origin and the dropped tier,
and the session settles as for a LOWER that ends with the gate off. -/
def State.recallRamp (k : Slot) (target : Nat) (origin : RecallOrigin) (s : State) : State :=
  if target < s.grantedTier k then
    ((s.dropLease k).post .cut (some k) origin.reason (s.grantedTier k)).settle k
  else s

/-- A recall is presented to the lease of slot `k` (R46 to R49). On ON a RAISE is cancelled first (R47); a ramp-phase lease is
reached by origin HOST or POLICY only (R49). -/
def State.recall (k : Slot) (target : Nat) (origin : RecallOrigin) (s : State) : State :=
  match (s.sessOf k).state with
  | .on => (s.cancelRaise k).recallOn k target origin
  | .rampWait | .ramping =>
    match origin with
    | .host | .policy => s.recallRamp k target origin
    | .preempt | .shed | .overdraw => s
  | .vacant | .barred | .listening | .rejected | .standby | .faulted => s

/-- A LOWER of slot `k` ends with the lease kept at tier `u` of draw `d` (R18, R60): the fall goes to the earmark or to free, and a
pass follows. -/
def State.endLowerKept (k : Slot) (u d : Nat) (s : State) : State :=
  match s.leaseOf k with
  | none => s
  | some l =>
    let t := s.setLease k (some { l with tier := u, draw := d, trans := none })
    (t.creditVictim k (s.commitment k - t.commitment k)).wantPass true

/-- The session settles and, on an enabled slot, a RESTORE is raised for the dropped tier unless the admit flag is clear
(R53, R33, R69, R136). -/
def State.settleRestoring (k : Slot) (tier : Nat) (s : State) : State :=
  let t := s.settle k
  if (s.policyOf k).enabled then t.restore k tier else t

/-- What follows a LOWER of origin `origin` that ended with its lease dropped (R53). -/
def State.settleRecalled (k : Slot) (origin : RecallOrigin) (tier : Nat) (s : State) : State :=
  if origin = .shed then s.settleRestoring k tier else s.settle k

/-- A READY or YIELD naming tier `u`, at or below the target of the LOWER of origin `origin`, ends it (R50, R54). -/
def State.lowerAnswered (k : Slot) (u : Nat) (origin : RecallOrigin) (s : State) : State :=
  if u = 0 then
    ((s.dropLease k).post .recallDone (some k) origin.reason 0).settleRecalled k origin (s.grantedTier k)
  else
    ((s.endLowerKept k u (s.drawOf k u)).modLine k (Line.remove .recall)).post .recallDone (some k) origin.reason u

/-- A LOWER whose deadline has passed with the module still drawing: the cut of R51 and R52. -/
def State.cutRecalled (k : Slot) (origin : RecallOrigin) (s : State) : State :=
  let tier := s.grantedTier k
  (((s.modSess k (fun x => { x with admitFlag := false })).dropLease k).post .cut (some k) .recallTimeout tier).settleRecalled
    k origin tier

/-- Deadline expiry of the LOWER of slot `k`, judged on the latest sample (R51, R52, R131). -/
def State.lowerExpired (k : Slot) (target draw : Nat) (origin : RecallOrigin) (s : State) : State :=
  if (s.monOf k).power ≤ draw + s.settings.overdrawMargin then
    if target = 0 then
      ((s.dropLease k).post .recallSilent (some k) origin.reason 0).settleRecalled k origin (s.grantedTier k)
    else (s.endLowerKept k target draw).post .recallSilent (some k) origin.reason target
  else s.cutRecalled k origin

end Sys2Proof.Machine
end

