-- ==== Sys2Proof/Machine/Pass.lean ====
section
/-! DEFINITION. The allocation pass, reclaim, and the end of a happening (chapter 2, section 2.5; chapter 3, section 3.3). -/

namespace Sys2Proof.Machine

/-! ### Shedding order -/

/-- Slot `i` gives up its power before slot `j` (R62). -/
def State.shedsBefore (s : State) (i j : Slot) : Bool :=
  let a := s.policyOf i
  let b := s.policyOf j
  decide (a.cls.weight < b.cls.weight) ||
    (decide (a.cls.weight = b.cls.weight) &&
      (decide (a.rank < b.rank) || (decide (a.rank = b.rank) && decide (j < i))))

/-- `k` placed in a list in shedding order. -/
def State.shedInsert (s : State) (k : Slot) : List Slot → List Slot
  | [] => [k]
  | j :: js => if s.shedsBefore k j then k :: j :: js else j :: s.shedInsert k js

/-- The eight slots in shedding order (R62). -/
def State.shedOrder (s : State) : List Slot := allSlots.foldr (fun k l => s.shedInsert k l) []

/-! ### Reclaim -/

/-- freeable(t) of slot `k` (R57). -/
def State.freeable (s : State) (k : Slot) (t : Nat) : Int :=
  (s.commitment k : Int) - (max (s.floorOf k) (s.drawOf k t) : Nat)

/-- Slot `k` holds a candidate victim (R57). -/
def State.candidate (s : State) (k : Slot) : Bool :=
  match s.leaseOf k with
  | none => false
  | some l =>
    decide ((s.sessOf k).state = .on) && decide ((s.policyOf k).cls = .deferrable) && l.trans.isNone &&
      !(s.lineOf k).lost && decide (2 ≤ l.tier)

/-- The walk of R58 over candidates, with the shortfall that remains: the targets chosen, or none when the candidates run out. -/
def State.reclaimPlan (s : State) : List Slot → Int → Option (List (Slot × Nat))
  | [], _ => none
  | k :: ks, rest =>
    if s.freeable k 1 ≤ 0 then s.reclaimPlan ks rest
    else if rest ≤ s.freeable k 1 then
      some [(k, highestTier (fun t => decide (rest ≤ s.freeable k t)) (s.grantedTier k - 1))]
    else (s.reclaimPlan ks (rest - s.freeable k 1)).map (fun p => (k, 1) :: p)

/-- The reclaim begins (R59): the planned recalls are issued, the record is filled and RECLAIM_BEGIN is posted. -/
def State.beginReclaim (e : Entry) (short : Nat) (plan : List (Slot × Nat)) (s : State) : State :=
  let t := plan.foldl (fun s p => s.recallOn p.1 p.2 .preempt) s
  ({ t with alloc := { t.alloc with
      reclaim := some { slot := e.slot, tag := e.tag, shortfall := short, victims := plan.map Prod.fst } } }).post
    .reclaimBegin (some e.slot) .preempt short

/-- An entry that does not fit asks for a reclaim where R42 and R56 allow one: a shortfall lies in 1..32767, so an entry
that only its cap holds back asks for none (log entry 40). -/
def State.askReclaim (e : Entry) (s : State) : State :=
  if e.cls = .essential ∧ s.settings.preempt = true ∧ s.alloc.reclaim = none ∧ s.alloc.state = .running ∧ 0 < s.shortfall e then
    match s.reclaimPlan (s.shedOrder.filter s.candidate) (s.shortfall e) with
    | some plan => s.beginReclaim e (s.shortfall e).toNat plan
    | none => s
  else s

/-! ### The walk -/

/-- The entry of slot `k` may be tested: its link is UP and its lease carries no transition (R38). -/
def State.eligible (s : State) (k : Slot) : Bool := !(s.lineOf k).lost && !s.lowering k && !s.raising k

/-- What the entry's need is tested against: free, or free plus earmark for the beneficiary (R39). -/
def State.budgetFor (s : State) (k : Slot) : Int :=
  if s.isBeneficiary k then s.free + s.alloc.earmark else s.free

/-- The grant tier of an entry: the highest tier considered whose draw is within the cap and whose need fits, or 0 (R39). -/
def State.grantTier (s : State) (e : Entry) : Nat :=
  highestTier (fun t => decide (s.lowestTier e ≤ t) && decide (1 ≤ t) && decide (s.drawOf e.slot t ≤ (s.policyOf e.slot).cap) &&
    decide (s.need e.slot t ≤ s.budgetFor e.slot)) e.wanted

/-- The pass counts of the eligible entries ahead of slot `k`'s rise by 1, up to PASS_LIMIT (R41). -/
def State.bumpAhead (s : State) (k : Slot) : List Entry → List Entry
  | [] => []
  | e :: es =>
    if e.slot = k then e :: es
    else (if s.eligible e.slot && decide (e.passCount < s.settings.passLimit) then { e with passCount := e.passCount + 1 } else e)
      :: s.bumpAhead k es

/-- A lease is created in RAMP_WAIT for a STANDBY session and handed to the Ramp Queue (R10). -/
def State.createLease (k : Slot) (t : Nat) (short : Bool) (s : State) : State :=
  let tag := (s.sessOf k).tag
  let s := s.setLease k (some { tag := tag, tier := t, draw := s.drawOf k t, short := short, trans := none })
  let s := s.modSess k (fun x => { x with state := .rampWait })
  (s.handToRamp k tag).modLine k Line.removeHold

/-- A RAISE to `t` is created on lease `l` and its GRANT queued (R14). -/
def State.createRaise (k : Slot) (l : Lease) (t : Nat) (origin : EntryOrigin) (short : Bool) (s : State) : State :=
  (s.setLease k (some { l with trans := some (.raise t (s.drawOf k t) origin) })).modLine k
    (Line.queueClaim (.grant t short))

/-- A grant of tier `t` to entry `e` (R40): the pass counts ahead rise (R41), the entry leaves, the RAISE or lease is made,
GRANTED is posted, and the beneficiary's reclaim ends as GRANTED (R61), with a further pass due where earmark went back to
free (R37). -/
def State.grant (e : Entry) (t : Nat) (s : State) : State :=
  let k := e.slot
  let short := decide (t < e.wanted)
  let ben := s.isBeneficiary k
  let u := (s.withQueue (s.bumpAhead k s.alloc.queue)).unqueue k
  let u := match s.leaseOf k with
    | some l => u.createRaise k l t e.origin short
    | none => u.createLease k t short
  let u := u.postGranted k e.origin.reason short t
  if ben then
    let left := decide (u.commitment k - s.commitment k < s.alloc.earmark)
    (({ u with alloc := { u.alloc with reclaim := none, earmark := 0 } }).wantPass left).post .reclaimEnd (some k) .preempt 1
  else u

/-- The walk of a pass over the slots whose entries stand in the queue, from the head (R37 to R42). -/
def State.walk : List Slot → State → State
  | [], s => s
  | k :: ks, s =>
    match s.entryOf k with
    | none => State.walk ks s
    | some e =>
      if s.eligible k then
        if s.grantTier e = 0 then
          if s.settings.backfill && decide (e.passCount < s.settings.passLimit) then State.walk ks (s.askReclaim e)
          else s.askReclaim e
        else State.walk ks (s.grant e (s.grantTier e))
      else State.walk ks s

/-- The reclaim ends as UNMET when a pass ends with the victim set empty and the beneficiary not granted; earmark fell, so a
further pass is due (R64). -/
def State.testUnmet (s : State) : State :=
  match s.alloc.reclaim with
  | none => s
  | some r => if r.victims = [] then (s.endReclaim 3).wantPass true else s

/-- One allocation pass with the test that follows it (R37, R64). -/
def State.pass (s : State) : State :=
  (State.walk (s.alloc.queue.map Entry.slot) { s with alloc := { s.alloc with passDue := false } }).testUnmet

/-- The passes at the end of a happening: one when a cause of R37 has arisen in RUNNING, and a further one each time a pass
returned earmark to free. A grant and an UNMET end each use up the one reclaim record, so `fuel` 4 is never exhausted. -/
def State.passes : Nat → State → State
  | 0, s => { s with alloc := { s.alloc with passDue := false } }
  | fuel + 1, s =>
    if s.alloc.passDue && decide (s.alloc.state = .running) then State.passes fuel s.pass
    else { s with alloc := { s.alloc with passDue := false } }

/-- The end of shedding, tested (R71): SHED_END is posted, and the state is SAG_HOLD under the sag condition, else RUNNING
with a pass due (R19). -/
def State.testShedEnd (s : State) : State :=
  if s.alloc.state = .shedding ∧ s.alloc.committed ≤ s.available then
    let t := s.post .shedEnd none .none s.alloc.committed
    { t with alloc := { t.alloc with
        state := if t.alloc.sagCondition then .sagHold else .running
        passDue := true } }
  else s

/-- The end of a happening at the Allocator and the Power Path Unit: the end of shedding is tested (R71), the pass runs
(R37), and the ramp resource is handed on (R118). R37 and R118 give no order between the pass and the handing on: that the pass
comes first is the model's choice (DESIGN CHOICE, log entry 47). -/
def State.finish (s : State) : State := (s.testShedEnd.passes 4).handOn

end Sys2Proof.Machine
end

