-- ==== Sys2Proof/Machine/DrawMonitor.lean ====
section
/-! DEFINITION. The Draw Monitor's scan and the reports and timers that come of it: output good, overdraw, sag, recall deadlines (chapter 7). -/

namespace Sys2Proof.Machine

/-! ### The scan -/

/-- The kept values after a scan that reads power `p` and voltage `v`, saturated (R128, R129). -/
def MonSlot.sample (x : Sample) (m : MonSlot) : MonSlot :=
  let p := min 8191 x.power
  { m with power := p, voltage := min 1023 x.voltage, peak := max m.peak p, window := (p :: m.window).take 16 }

/-- The scan qualifies for output good against bulk voltage `bulk`: at or above 90 percent (R130). -/
def MonSlot.qualifies (m : MonSlot) (bulk : Nat) : Bool := decide (9 * bulk ≤ 10 * m.voltage)

/-- The second qualifying scan in a row: the watch reports and is disarmed (R130). -/
def MonSlot.good (m : MonSlot) : MonSlot := { m with watchArmed := false, watchCount := 2 }

/-- OUTPUT_GOOD is due for this slot at a scan: the watch is armed with one qualifying scan counted and this scan qualifies. -/
def MonSlot.goodDue (m : MonSlot) (bulk : Nat) : Bool := m.watchArmed && decide (m.watchCount = 1) && m.qualifies bulk

/-- The watch after a scan that does not complete it (R130). -/
def MonSlot.watch (bulk : Nat) (m : MonSlot) : MonSlot :=
  if m.watchArmed then { m with watchCount := if m.qualifies bulk then m.watchCount + 1 else 0 } else m

/-- Output good of slot `k` (R130): the watch is disarmed at count 2 and the report, with the watch's tag, is presented. -/
def State.reportGood (k : Slot) (s : State) : State :=
  { s.modMon k MonSlot.good with raised := s.raised ++ [.rampDone k (s.monOf k).watchTag] }

/-- The watch step of one slot in a scan. -/
def State.stepWatch (bulk : Nat) (k : Slot) (s : State) : State :=
  if (s.monOf k).goodDue bulk then s.reportGood k else s.modMon k (MonSlot.watch bulk)

/-- The strike state returns to NONE (R134). -/
def MonSlot.clearStrike (m : MonSlot) : MonSlot := { m with struck := false, clean := 0 }

/-- The strike number that strike state and granted tier give (R133). -/
def strikeNumber (struck : Bool) (tier : Nat) : StrikeNumber :=
  if struck = false ∧ 2 ≤ tier then .first else .second

/-- A scan above the ceiling of an ON lease (R132, R133): a strike is raised when the run count reaches OVERDRAW_COUNT. -/
def State.scanAbove (k : Slot) (l : Lease) (s : State) : State :=
  let m := s.monOf k
  if s.settings.overdrawCount ≤ m.run + 1 then
    { s.modMon k (fun m => { m with run := 0, clean := 0, struck := true }) with
      raised := s.raised ++ [.overdrawStrike k l.tag (strikeNumber m.struck l.tier)] }
  else s.modMon k (fun m => { m with run := m.run + 1, clean := 0 })

/-- A scan at or below the ceiling (R132, R134): the 256th clean scan of a STRUCK slot lifts the strike. -/
def MonSlot.scanBelow (m : MonSlot) : MonSlot :=
  let m := { m with run := 0 }
  if m.struck then (if m.clean = 255 then m.clearStrike else { m with clean := m.clean + 1 }) else m

/-- The overdraw step of one slot in a scan (R132 to R134). -/
def State.stepOverdraw (k : Slot) (s : State) : State :=
  match (s.sessOf k).state, s.leaseOf k with
  | .on, some l =>
    if l.draw + s.settings.overdrawMargin < (s.monOf k).power then s.scanAbove k l else s.modMon k MonSlot.scanBelow
  | _, _ => s.modMon k (fun m => { m with run := 0 })

/-- The recovery level (R135). -/
def State.recovered (s : State) (bulk : Nat) : Bool := decide (s.settings.sagLevel + 10 ≤ bulk)

/-- The sag detector's state after a scan in which no sag began (R135). A timer that stops shows 0 (log entry 48). -/
def State.stepDetector (bulk : Nat) (s : State) : State :=
  match s.mon.sag, s.recovered bulk with
  | .sagged, true => { s with mon := { s.mon with sag := .holdoff, holdoff := s.settings.sagHoldoff * 10 } }
  | .holdoff, false => { s with mon := { s.mon with sag := .sagged, holdoff := 0 } }
  | _, _ => s

/-- The sag step of a scan (R135): the low count, the beginning of a sag, and the detector's state. -/
def State.stepSag (bulk : Nat) (s : State) : State :=
  if bulk < s.settings.sagLevel then
    if s.mon.low = 1 then
      { s with mon := { s.mon with low := 2, sag := .sagged, holdoff := 0 }, raised := s.raised ++ [.sagBegin bulk] }
    else ({ s with mon := { s.mon with low := min 2 (s.mon.low + 1) } }).stepDetector bulk
  else ({ s with mon := { s.mon with low := 0 } }).stepDetector bulk

/-- SCAN (R128): the kept values, the watches, the overdraw counts and the sag detector are stepped, and the next scan is
due SCAN_PERIOD later (R140). -/
def State.scan (samples : PerSlot Sample) (bulk : Nat) (s : State) : State :=
  let b := min 1023 bulk
  let s : State := { s with mon := { s.mon with bulk := b, scanTimer := s.settings.scanPeriod } }
  let s := allSlots.foldl (fun s k => s.modMon k (MonSlot.sample (samples.get k))) s
  let s := allSlots.foldl (fun s k => s.stepWatch b k) s
  let s := allSlots.foldl (fun s k => s.stepOverdraw k) s
  s.stepSag b

/-! ### The reports -/

/-- The Allocator takes a strike report (R133): OVERDRAW_STRIKE is posted, then a first strike recalls an ON lease to tier 1 (on
a ramp-phase lease no recall is issued, log entry 38) and a second ends the session. -/
def State.strike (k : Slot) (n : StrikeNumber) (s : State) : State :=
  match n with
  | .first => (s.post .overdrawStrike (some k) .overdraw 1).recall k 1 .overdraw
  | .second => (s.post .overdrawStrike (some k) .overdraw 2).faultSlot k .overdraw

/-- OVERDRAW_STRIKE (R133): discarded when the lease is gone or bears another tag (R9). -/
def State.takeStrike (k : Slot) (tag : Byte) (n : StrikeNumber) (s : State) : State :=
  match s.leaseOf k with
  | none => s
  | some l => if l.tag = tag then (s.strike k n).finish else s

/-- Slot `k` is cut by a sag (R136 step 2): its lease is dropped and CUT(SAG) posted; in SHEDDING the fall is tested (R71). -/
def State.sagCut (k : Slot) (s : State) : State :=
  ((s.dropLease k).post .cut (some k) .sag (s.grantedTier k)).testShedEnd

/-- The slots a sag cuts: DEFERRABLE in the live policy and with a lease, ascending (R136). -/
def State.sagVictims (s : State) : List Slot :=
  allSlots.filter (fun k => decide ((s.policyOf k).cls = .deferrable) && (s.leaseOf k).isSome)

/-- SAG_BEGIN, the Allocator's happening (R136, R138): the condition and the ramp hold are set, the DEFERRABLE leases are
cut, and their sessions settle with a RESTORE for the dropped tier. -/
def State.sagBegins (bulk : Nat) (s : State) : State :=
  let s : State := s.post .sagBegin none .sag bulk
  let s : State := { s with
    alloc := { s.alloc with sagCondition := true, state := if s.alloc.state = .running then .sagHold else s.alloc.state }
    power := { s.power with hold := true } }
  let t := s.sagVictims.foldl (fun t k => t.sagCut k) s
  (s.sagVictims.foldl (fun t k => t.settleRestoring k (s.grantedTier k)) t).finish

/-- SAG_END (R139): the detector returns to NORMAL, condition and hold are cleared, and SAG_HOLD becomes RUNNING with a pass. -/
def State.sagEnds (s : State) : State :=
  let s : State := { s with mon := { s.mon with sag := .normal, low := 0, holdoff := 0 } }
  let s : State := s.post .sagEnd none .sag s.mon.bulk
  let resumes := decide (s.alloc.state = .sagHold)
  let s : State := { s with
    alloc := { s.alloc with sagCondition := false, state := if resumes then .running else s.alloc.state }
    power := { s.power with hold := false } }
  (s.wantPass resumes).finish

/-- RECALL_DEADLINE at slot `k` (R51, R52): only a LOWER in flight has a deadline. -/
def State.deadlinePassed (k : Slot) (s : State) : State :=
  match s.leaseOf k with
  | none => s
  | some l =>
    match l.trans with
    | some (.lower target draw origin _) => (s.lowerExpired k target draw origin).finish
    | some (.raise _ _ _) => s
    | none => s

/-! ### The commands -/

/-- SCAN. -/
def execScan (samples : PerSlot Sample) (bulk : Nat) (s : State) : Host.Outcome State Fault Refusal :=
  .next (s.whenLoaded (State.scan samples bulk))

/-- OUTPUT_GOOD (R130): the watch of slot `k` takes its second qualifying scan. -/
def execOutputGood (k : Slot) (s : State) : Host.Outcome State Fault Refusal :=
  .next (s.whenLoaded (fun s => if (s.monOf k).watchArmed = true ∧ (s.monOf k).watchCount = 1 then s.reportGood k else s))

/-- OVERDRAW_STRIKE. -/
def execOverdrawStrike (k : Slot) (tag : Byte) (n : StrikeNumber) (s : State) : Host.Outcome State Fault Refusal :=
  .next ((s.taken (.overdrawStrike k tag n)).whenLoaded (State.takeStrike k tag n))

/-- STRIKE_CLEAR (R134): the 256th clean scan of a STRUCK slot in ON. -/
def execStrikeClear (k : Slot) (s : State) : Host.Outcome State Fault Refusal :=
  .next (s.whenLoaded (fun s =>
    if (s.sessOf k).state = .on ∧ (s.monOf k).struck = true ∧ (s.monOf k).clean = 255 then
      s.modMon k (fun m => { m.clearStrike with run := 0 })
    else s))

/-- SAG_BEGIN. -/
def execSagBegin (bulk : Nat) (s : State) : Host.Outcome State Fault Refusal :=
  .next ((s.taken (.sagBegin bulk)).whenLoaded (State.sagBegins bulk))

/-- SAG_END (R139): only a detector in HOLDOFF has a hold-off timer. -/
def execSagEnd (s : State) : Host.Outcome State Fault Refusal :=
  .next (s.whenLoaded (fun s => if s.mon.sag = .holdoff then s.sagEnds else s))

/-- RECALL_DEADLINE. -/
def execRecallDeadline (k : Slot) (s : State) : Host.Outcome State Fault Refusal :=
  .next (s.whenLoaded (State.deadlinePassed k))

end Sys2Proof.Machine
end

