-- ==== Sys2Proof/Machine/Flags.lean ====
section
/-! DEFINITION. What the host sees: the status flags and INT_N, the register window, the table records and the notice words (chapters 9 to 11). -/

namespace Sys2Proof.Machine

/-- The low `n` bits of `v` at bit `lo`. -/
def field (v lo n : Nat) : Nat := v % 2 ^ n * 2 ^ lo

/-- A flag at bit `lo`. -/
def bit (b : Bool) (lo : Nat) : Nat := if b then 2 ^ lo else 0

/-! ### Status and the interrupt line -/

/-- The Command Unit is BUSY: from the acceptance of STORE_POLICY until that store ends (R160). -/
def State.busy (s : State) : Bool := s.store.state != .idle

/-- STATUS.NOTICE_PENDING (R155). -/
def State.noticePending (s : State) : Bool := !s.notices.records.isEmpty

/-- INT_N is asserted (R175). -/
def State.intAsserted (s : State) : Bool :=
  (s.noticePending && s.host.intNoticeEn) || (s.host.cmdDone && s.host.intCmdEn)

/-- The allocator state code of STATUS (section 11.2). -/
def AllocState.code : AllocState → Nat
  | .running => 0
  | .shedding => 1
  | .sagHold => 2

/-- STATUS (section 11.2). -/
def State.statusWord (s : State) : Word :=
  wordOf (field s.alloc.state.code 0 2 + bit s.busy 2 + bit s.host.cmdDone 3 + bit s.host.cmdOverrun 4 +
    bit s.host.badWrite 5 + bit s.noticePending 6 + bit s.store.startDone 7)

/-- CONTROL as it reads; PORT_RESET reads 0 (R157). -/
def State.controlWord (s : State) : Word :=
  wordOf (bit s.settings.backfill 0 + bit s.settings.preempt 1 + bit s.host.intNoticeEn 2 + bit s.host.intCmdEn 3)

/-! ### The budget registers -/

/-- FREE: free while it is positive or zero, 0 while it is negative (R7). -/
def State.freeReg (s : State) : Nat := s.free.toNat

/-- EXCESS: committed plus earmark minus available while that is positive, else 0 (R7). -/
def State.excessReg (s : State) : Nat := (-s.free).toNat

/-- The seven budget registers at one moment (R20). -/
def State.budgetNow (s : State) : BudgetCapture :=
  { supplyLimit := wordOf s.settings.supplyLimit, reserve := wordOf s.settings.reserve, available := wordOf s.available,
    committed := wordOf s.alloc.committed, earmark := wordOf s.alloc.earmark, free := wordOf s.freeReg,
    excess := wordOf s.excessReg }

/-- The captured word of a budget register's address, or none for an address that is not one (section 11.2). -/
def BudgetCapture.at? (c : BudgetCapture) (addr : BitVec 7) : Option Word :=
  match addr.toNat with
  | 0x04 => some c.supplyLimit
  | 0x05 => some c.reserve
  | 0x06 => some c.available
  | 0x07 => some c.committed
  | 0x08 => some c.earmark
  | 0x09 => some c.free
  | 0x0A => some c.excess
  | _ => none

/-! ### The register window -/

/-- A setting register as it reads (section 11.2). -/
def settingWord (x : Settings) : SettingReg → Word
  | .settleTime => wordOf x.settleTime
  | .pollPeriod => wordOf x.pollPeriod
  | .linkCtrl => wordOf (field x.lineRetries 0 2 + field x.linkGrace 8 8)
  | .rampCtrl => wordOf (field x.rampTimeout 0 8 + field x.rampRetries 8 2)
  | .monCtrl => wordOf (field (scanPeriodCode x.scanPeriod) 0 2 + field x.overdrawCount 8 4)
  | .overdrawMargin => wordOf x.overdrawMargin
  | .sagLevel => wordOf x.sagLevel
  | .sagHoldoff => wordOf x.sagHoldoff

/-- The code of a copy's class in START_REPORT (section 11.2). -/
def CopyClass.code : CopyClass → Nat
  | .none => 0
  | .valid => 1
  | .blank => 2
  | .bad => 3

/-- The code of the source in START_REPORT (section 11.2). -/
def Source.code : Source → Nat
  | .none => 0
  | .a => 1
  | .b => 2
  | .defaults => 3

/-- START_REPORT (R145, section 11.2). -/
def StartReport.word (r : StartReport) : Word :=
  wordOf (field r.classA.code 0 2 + field r.classB.code 2 2 + field r.source.code 4 2 + field r.generation.toNat 8 8)

/-- NOTICE_COUNT (R174, section 11.2). -/
def NoticeQueue.countWord (q : NoticeQueue) : Word :=
  wordOf (field q.records.length 0 6 + field q.lostCount 8 8)

/-- The value of a register whose read has no side effect, once the load is complete (section 11.2); an address that
carries no register reads 0 (R178). The budget registers read their value at this moment. -/
def State.register (s : State) (addr : BitVec 7) : Word :=
  match addr.toNat with
  | 0x00 => 0x0B08
  | 0x01 => 0x0001
  | 0x02 => s.statusWord
  | 0x03 => s.controlWord
  | 0x0B => s.host.cmd
  | 0x0C => s.host.arg0
  | 0x0D => s.host.arg1
  | 0x0E => wordOf s.cmd.result.code
  | 0x0F => settingWord s.settings .settleTime
  | 0x10 => settingWord s.settings .pollPeriod
  | 0x11 => settingWord s.settings .linkCtrl
  | 0x12 => settingWord s.settings .rampCtrl
  | 0x13 => settingWord s.settings .monCtrl
  | 0x14 => settingWord s.settings .overdrawMargin
  | 0x15 => wordOf s.settings.passLimit
  | 0x16 => settingWord s.settings .sagLevel
  | 0x17 => settingWord s.settings .sagHoldoff
  | 0x18 => s.host.tableSel
  | 0x1B => s.notices.countWord
  | 0x1C => s.store.report.word
  | 0x1D => wordOf s.mon.bulk
  | _ => (s.budgetNow.at? addr).getD 0

/-- What a register reads until the load is complete: DEVICE_ID and REVISION their values, every other 0 (R145, section 11.2). -/
def unloadedRegister (addr : BitVec 7) : Word :=
  match addr.toNat with
  | 0x00 => 0x0B08
  | 0x01 => 0x0001
  | _ => 0

/-! ### Table records -/

/-- The class bit of every table: 0 DEFERRABLE, 1 ESSENTIAL (section 11.3). -/
def PowerClass.isEssential : PowerClass → Bool
  | .deferrable => false
  | .essential => true

/-- The start mode bit: 0 HOST, 1 AUTO (section 11.3). -/
def StartMode.isAuto : StartMode → Bool
  | .host => false
  | .auto => true

/-- A POLICY or STAGING record (section 11.3). -/
def PolicyRecord.words (r : PolicyRecord) : List Word :=
  [wordOf (bit r.enabled 0 + bit r.cls.isEssential 1 + bit r.startMode.isAuto 2 + field r.rank 4 4), wordOf r.floor, wordOf r.cap]

/-- The last reason field: the refusal reason in REJECTED, else the cause kept from the last session end (R73). -/
def Session.lastReason (x : Session) : Reason :=
  match x.state with
  | .rejected => x.refusal
  | .vacant | .barred | .listening | .standby | .rampWait | .ramping | .on | .faulted => x.lastEnd

/-- The kind code shown for an outbox channel; 0 when it is empty (section 11.3). -/
def chanCode (m : Option DownMsg) : Nat :=
  match m with
  | none => 0
  | some m => m.kindCode

/-- Milliseconds in 10 ms units, rounded up (R115, R141). -/
def tens (ms : Nat) : Nat := (ms + 9) / 10

/-- A SESSION record (section 11.3). -/
def sessionWords (x : Session) (l : Line) : List Word :=
  [wordOf (field x.state.code 0 4 + bit x.admitFlag 4 + bit l.lost 5 + bit l.seq 6 + field x.tag.toNat 8 8),
   wordOf (field x.lastReason.code 0 8 + field x.protoErrors 8 8),
   wordOf (field (chanCode l.outSession) 0 4 + field (chanCode l.outRecall) 4 4 + field (chanCode l.outClaim) 8 4),
   wordOf (field (tens (l.grace.getD 0)) 0 8),
   wordOf (field l.counters.noResponse 0 8 + field l.counters.badFormat 8 8),
   wordOf (field l.counters.badCrc 0 8 + field l.counters.badKind 8 8),
   wordOf (field l.counters.badTag 0 8 + field l.counters.badEcho 8 8)]

/-- The phase of a lease: a copy of the session state (R9, section 11.3). -/
def SessState.phaseCode : SessState → Nat
  | .rampWait => 1
  | .ramping => 2
  | .on => 3
  | .vacant | .barred | .listening | .rejected | .standby | .faulted => 0

/-- The fields of a transition as the LEASE record shows them: kind, target tier, origin, target draw, deadline remaining. -/
def Transition.fields : Option Transition → Nat × Nat × Nat × Nat × Nat
  | none => (0, 0, 0, 0, 0)
  | some (.raise t d o) => (1, t, o.reason.code, d, 0)
  | some (.lower t d o left) => (2, t, o.reason.code, d, left)

/-- A LEASE record (section 11.3); an absent entry reads as zeros. -/
def State.leaseWords (s : State) (k : Slot) : List Word :=
  match s.leaseOf k with
  | none => [0, 0, 0, 0, 0]
  | some l =>
    let (kind, target, origin, draw, left) := Transition.fields l.trans
    [wordOf (field (s.sessOf k).state.phaseCode 0 2 + field l.tier 2 3 + bit l.short 5 + field kind 6 2 +
       bit (s.isVictim k && l.lowering) 8),
     wordOf (field l.tag.toNat 0 8 + field target 8 3 + field origin 11 5),
     wordOf (field l.draw 0 12), wordOf (field draw 0 12), wordOf (field left 0 12)]

/-- A QUEUE record, by position (R44, section 11.3). -/
def State.queueWords (s : State) (position : Nat) : List Word :=
  match s.alloc.queue[position]? with
  | none => [0, 0, 0]
  | some e =>
    let mark := s.isBeneficiary e.slot
    [wordOf (field e.slot.val 0 3 + field e.origin.reason.code 4 3 + bit e.cls.isEssential 7 + field e.rank 8 3 +
       bit mark 11 + field e.passCount 12 4),
     wordOf (field e.tag.toNat 0 8 + field e.wanted 8 3 + field e.least 12 3),
     wordOf (field (if mark then s.alloc.reclaim.elim 0 Reclaim.shortfall else 0) 0 15)]

/-- The ramp state code (section 11.3). -/
def RampState.code : RampState → Nat
  | .none => 0
  | .queued => 1
  | .backoff => 2
  | .ramping => 3

/-- The timer a RAMPQ record shows: what remains in RAMPING or BACKOFF, else 0. -/
def Ramp.shownTimer (r : Ramp) : Nat :=
  match r.state with
  | .ramping | .backoff => r.timer
  | .none | .queued => 0

/-- The Ramp Queue position a RAMPQ record shows: 15 when the slot is not QUEUED. -/
def State.rampPosition (s : State) (k : Slot) : Nat :=
  if (s.rampOf k).state = .queued then s.power.queue.findIdx (fun j => j == k) else 15

/-- A RAMPQ record (R127, section 11.3); word 2 is shown in the record of slot 0 only. -/
def State.rampWords (s : State) (k : Slot) : List Word :=
  let r := s.rampOf k
  [wordOf (field r.state.code 0 2 + bit r.cls.isEssential 2 + field r.retry 3 2 + bit r.gate 5 + bit r.aux 6 +
     field r.tag.toNat 8 8),
   wordOf (field r.shownTimer 0 8 + field (s.rampPosition k) 8 4),
   if k = 0 then wordOf (field (s.power.holder.elim 15 Fin.val) 0 4 + bit s.power.hold 4) else 0]

/-- The average of the last 16 samples, rounded down (R129). -/
def MonSlot.average (m : MonSlot) : Nat := m.window.sum / 16

/-- The sag detector code (section 11.3). -/
def SagState.code : SagState → Nat
  | .normal => 0
  | .sagged => 1
  | .holdoff => 2

/-- A MONITOR record (R141, section 11.3); word 5 is shown in the record of slot 0 only. -/
def State.monitorWords (s : State) (k : Slot) : List Word :=
  let m := s.monOf k
  [wordOf (field m.power 0 13), wordOf (field m.voltage 0 10), wordOf (field m.peak 0 13), wordOf (field m.average 0 13),
   wordOf (field m.run 0 4 + bit m.struck 4 + bit m.watchArmed 5 + field m.watchCount 6 2 + field m.clean 8 8),
   if k = 0 then wordOf (field s.mon.sag.code 0 2 + field s.mon.low 2 2 + field (tens s.mon.holdoff) 8 8) else 0]

/-- A MODULE record (R94, section 11.3). -/
def moduleWords (d : Option Descriptor) : List Word :=
  match d with
  | none => List.replicate 10 0
  | some d =>
    [wordOf (field d.tiers 0 3 + bit true 3 + field (min 7 d.preferred.toNat) 4 3 + field d.flags.toNat 8 8),
     d.kind, d.serial.extractLsb' 16 16, d.serial.extractLsb' 0 16,
     d.draws[0]?.getD 0, d.draws[1]?.getD 0, d.draws[2]?.getD 0, d.draws[3]?.getD 0, d.draws[4]?.getD 0, d.draws[5]?.getD 0]

/-- The record that TABLE_SEL selects, as it stands (R158): an index or code beyond the table captures zeros. -/
def State.recordOf (s : State) (sel : Word) : List Word :=
  let code := selCode sel
  let zeros := List.replicate (recordWords code) (0 : Word)
  match code.toNat with
  | 1 => s.cmd.staging.words
  | 4 => if selIndex sel < 8 then s.queueWords (selIndex sel) else zeros
  | n =>
    match slotOf? (selIndex sel) with
    | none => zeros
    | some k =>
      match n with
      | 0 => (s.policyOf k).words
      | 2 => sessionWords (s.sessOf k) (s.lineOf k)
      | 3 => s.leaseWords k
      | 5 => s.rampWords k
      | 6 => s.monitorWords k
      | 7 => moduleWords (s.sessOf k).desc
      | _ => zeros

/-! ### Notice words -/

/-- Word `i` of a notice record (section 11.5). -/
def Notice.word (n : Notice) (i : Nat) : Word :=
  match i with
  | 0 => wordOf (field n.kind.code 0 8 + field n.seq.toNat 8 8)
  | 1 => wordOf (field (n.slot.elim 15 Fin.val) 0 4 + field n.reason.code 8 5 + bit n.short 15)
  | _ => wordOf n.value

/-- Word `i` of the notice read buffer (R174). -/
def NoticeBuffer.word (b : NoticeBuffer) (i : Nat) : Word :=
  match b with
  | .empty => 0
  | .emptyRecord => 0
  | .record n => n.word i

end Sys2Proof.Machine
end

