-- ==== Sys2Proof/Machine/Shedding.lean ====
section
/-! DEFINITION. Shedding: the test at SET_BUDGET, the plan of sweeps A and B, and carrying it out (chapter 3, section 3.4). -/

namespace Sys2Proof.Machine

/-- One choice of a shedding plan (R67). -/
inductive ShedChoice where
  | cancelRaise
  | recall (target : Nat)
  | abort
deriving DecidableEq, Repr

/-- The pending release of the LOWER of slot `k`, 0 without one (R17). -/
def State.pendingRelease (s : State) (k : Slot) : Int :=
  match s.leaseOf k with
  | none => 0
  | some l =>
    match l.trans with
    | some (.lower _ d _ _) => (s.commitment k : Int) - (max (s.floorOf k) d : Nat)
    | some (.raise _ _ _) => 0
    | none => 0

/-- The base a lease's releases are measured from (R67). -/
def State.shedBase (s : State) (k : Slot) : Nat :=
  match s.leaseOf k with
  | none => s.commitment k
  | some l =>
    match l.trans with
    | some (.lower _ d _ _) => max (s.floorOf k) d
    | some (.raise _ _ _) => s.commitment k
    | none => s.commitment k

/-- The release a choice gives (R67). -/
def State.release (s : State) (k : Slot) : ShedChoice → Int
  | .cancelRaise => (s.shedBase k : Int) - (max (s.floorOf k) ((s.leaseOf k).elim 0 Lease.draw) : Nat)
  | .recall t => (s.shedBase k : Int) - (max (s.floorOf k) (s.drawOf k t) : Nat)
  | .abort => (s.shedBase k : Int) - (s.floorOf k : Nat)

/-- Recalls to the tiers below `n`, the highest target first. -/
def recallsBelow : Nat → List ShedChoice
  | 0 => []
  | n + 1 => .recall n :: recallsBelow n

/-- The choices of a lease, the highest target first; a choice that releases nothing is not one (R67). -/
def State.choices (s : State) (k : Slot) : List ShedChoice :=
  match s.leaseOf k with
  | none => []
  | some l =>
    let all : List ShedChoice :=
      match (s.sessOf k).state with
      | .on =>
        match l.trans with
        | none => recallsBelow l.tier
        | some (.raise _ _ _) => .cancelRaise :: recallsBelow l.tier
        | some (.lower t _ _ _) => recallsBelow t
      | .rampWait | .ramping => [.abort]
      | .vacant | .barred | .listening | .rejected | .standby | .faulted => []
    all.filter (fun c => decide (0 < s.release k c))

/-- The choice keeps the main path: a cancellation, or a target of 1 or more (R68, sweep B's first round). -/
def ShedChoice.keepsPath : ShedChoice → Bool
  | .cancelRaise => true
  | .recall t => decide (1 ≤ t)
  | .abort => false

/-- The rule of a sweep for one lease with `need` remaining (R68): the highest target that covers the need, else the lowest choice. -/
def State.pick (s : State) (k : Slot) (need : Int) (cs : List ShedChoice) : Option ShedChoice :=
  match cs.find? (fun c => decide (need ≤ s.release k c)) with
  | some c => some c
  | none => cs.getLast?

/-- One sweep over `ks`, each lease with the choices `choose` allows it: what it takes and the need that remains (R68). -/
def State.sweep (s : State) (choose : Slot → List ShedChoice) : List Slot → Int → List (Slot × ShedChoice) × Int
  | [], need => ([], need)
  | k :: ks, need =>
    if need ≤ 0 then ([], need)
    else
      match s.pick k need (choose k) with
      | none => s.sweep choose ks need
      | some c =>
        let rest := s.sweep choose ks (need - s.release k c)
        ((k, c) :: rest.1, rest.2)

/-- The choice a plan holds for slot `k`. -/
def planned (plan : List (Slot × ShedChoice)) (k : Slot) : Option ShedChoice :=
  (plan.find? (fun p => p.1 == k)).map Prod.snd

/-- Sweep B's second round (R68): each ESSENTIAL lease in turn moves from its first-round choice, or its present state, to
its lowest choice, until the need is covered. The result is in shedding order. -/
def State.sweepOff (s : State) (first : List (Slot × ShedChoice)) : List Slot → Int → List (Slot × ShedChoice)
  | [], _ => []
  | k :: ks, need =>
    let had := planned first k
    let keep := match had with
      | some c => [(k, c)]
      | none => []
    if need ≤ 0 then keep ++ s.sweepOff first ks need
    else
      match (s.choices k).getLast? with
      | none => keep ++ s.sweepOff first ks need
      | some c => (k, c) :: s.sweepOff first ks (need - (s.release k c - had.elim 0 (s.release k)))

/-- The need of a shedding plan: the excess less the pending releases (R67). -/
def State.shedNeed (s : State) : Int :=
  (s.alloc.committed : Int) - s.available - (allSlots.map s.pendingRelease).sum

/-- The shedding plan (R67, R68): sweep A over DEFERRABLE leases, then sweep B over ESSENTIAL ones. -/
def State.shedPlan (s : State) : List (Slot × ShedChoice) :=
  let a := s.sweep s.choices (s.shedOrder.filter (fun k => decide ((s.policyOf k).cls = .deferrable))) s.shedNeed
  let essential := s.shedOrder.filter (fun k => decide ((s.policyOf k).cls = .essential))
  let b := s.sweep (fun k => (s.choices k).filter ShedChoice.keepsPath) essential a.2
  if b.2 ≤ 0 then a.1 ++ b.1 else a.1 ++ s.sweepOff b.1 essential b.2

/-- A shedding abort of a ramp-phase lease (R69): dropped, CUT with reason SHED, STANDBY, and a RESTORE for the dropped tier
unless the admit flag is clear. -/
def State.abortRamp (k : Slot) (s : State) : State :=
  match (s.sessOf k).state with
  | .rampWait | .ramping => ((s.dropLease k).post .cut (some k) .shed (s.grantedTier k)).settleRestoring k (s.grantedTier k)
  | .vacant | .barred | .listening | .rejected | .standby | .on | .faulted => s

/-- One choice is carried out (R69). -/
def State.carryOut (s : State) (p : Slot × ShedChoice) : State :=
  match p.2 with
  | .cancelRaise => s.cancelRaise p.1
  | .recall t => s.recall p.1 t .shed
  | .abort => s.abortRamp p.1

/-- The test for shedding of an accepted SET_BUDGET (R66), after available is set and the queue checked again. -/
def State.testShedding (s : State) : State :=
  if s.alloc.committed + s.alloc.earmark ≤ s.available then s
  else
    let s := s.abandonReclaim
    if s.alloc.committed ≤ s.available then s.wantPass true
    else
      let t := if s.alloc.state = .shedding then s
        else ({ s with alloc := { s.alloc with state := .shedding } }).post .shedBegin none .none (s.alloc.committed - s.available)
      t.shedPlan.foldl State.carryOut t

end Sys2Proof.Machine
end

