-- ==== Sys2Proof/Machine/Commands.lean ====
section
/-! DEFINITION. The Command Unit and its eight commands (chapter 9, section 9.4), each from its checks to the work it hands on. -/

namespace Sys2Proof.Machine

/-! ### Completion -/

/-- A command other than STORE_POLICY completes with result `r` (R160). -/
def State.complete (r : CmdResult) (s : State) : State :=
  { s with cmd := { s.cmd with result := r }, host := { s.host with cmdDone := true } }

/-- A command is taken (R160): while BUSY it is discarded with CMD_OVERRUN, else `f` makes its checks and its work. -/
def State.command (f : State → State) (s : State) : State :=
  if s.busy then { s with host := { s.host with cmdOverrun := true } } else f s

/-- A command with a slot: the slot field is checked first (R160). -/
def State.slotCommand (slot : Byte) (f : Slot → State → State) (s : State) : State :=
  s.command (fun s =>
    match slotOf? slot.toNat with
    | none => s.complete .badSlot
    | some k => f k s)

/-! ### Checking the queue again (R28) -/

/-- The entry of slot `k`, if any, is denied when check `bad` fails for it. -/
def State.recheckSlot (bad : State → Slot → Nat → Bool) (r : Reason) (k : Slot) (s : State) : State :=
  match s.entryOf k with
  | none => s
  | some e => if bad s k e.least then s.denyEntry k r else s

/-- Check 6 is made again for every entry (R28), in the order of the queue from its head: the manual gives no order for the entries
and their notices (DESIGN CHOICE, log entry 45). -/
def State.recheckFits (s : State) : State :=
  (s.alloc.queue.map Entry.slot).foldl (fun t k => t.recheckSlot State.neverFits .neverFits k) s

/-! ### APPLY_POLICY -/

/-- Every field of a STAGING record lies in its range, and floor ≤ cap (R161, R142). -/
def PolicyRecord.inRange (r : PolicyRecord) : Bool :=
  decide (r.rank ≤ 7) && decide (r.floor ≤ 4095) && decide (1 ≤ r.cap) && decide (r.cap ≤ 4095) && decide (r.floor ≤ r.cap)

/-- The checks of APPLY_POLICY of record `r` to slot `k`, in order (R161). -/
def State.applyCheck (s : State) (k : Slot) (r : PolicyRecord) : CmdResult :=
  let new := max r.floorTerm (Lease.term (s.leaseOf k))
  if r.inRange = false then .badArg
  else if s.available + s.floorOf k < s.floorSum + r.floorTerm then .floorConflict
  else if s.commitment k < new ∧ (s.free < (new : Int) - s.commitment k ∨ s.alloc.state = .shedding) then .budgetConflict
  else .ok

/-- A changed class or rank reaches the slot's queue entry, which moves to the place a new join would take (R25). -/
def State.rekeyEntry (k : Slot) (s : State) : State :=
  match s.entryOf k with
  | none => s
  | some e =>
    (((s.unqueue k).joinEntry { e with cls := (s.policyOf k).cls, rank := (s.policyOf k).rank })).wantPass true

/-- The reclaim is abandoned when its beneficiary's slot is now DEFERRABLE (R63). -/
def State.abandonDeferrable (k : Slot) (s : State) : State :=
  if s.isBeneficiary k = true ∧ (s.policyOf k).cls = .deferrable then s.abandonReclaim else s

/-- A changed class reaches the slot's ramp record (R117): in QUEUED the slot moves to the last place of its new class, in
BACKOFF and RAMPING the class is copied. In NONE the record keeps the class it has (DESIGN CHOICE, log entry 51). -/
def State.reclassRamp (k : Slot) (s : State) : State :=
  let t := s.modRamp k (fun r => { r with cls := (s.policyOf k).cls })
  match (s.rampOf k).state with
  | .queued =>
    { t with power := { t.power with
      queue := rampInsert (fun j => (t.rampOf j).cls) k (t.rampOf k).cls (t.power.queue.filter (fun j => j != k)) } }
  | .backoff | .ramping => t
  | .none => s

/-- Step 2 of R161: class and rank are copied where they changed from `old`. -/
def State.applyKey (k : Slot) (old : PolicyRecord) (s : State) : State :=
  let new := s.policyOf k
  let t := if new.cls ≠ old.cls ∨ new.rank ≠ old.rank then s.rekeyEntry k else s
  if new.cls ≠ old.cls then (t.reclassRamp k).abandonDeferrable k else t

/-- Step 3 of R161: check 5 for the slot's own entry, check 6 for every entry (R28). That the slot's own check 5 comes before
any check 6 is the model's choice (DESIGN CHOICE, log entry 45). -/
def State.applyRecheck (k : Slot) (s : State) : State := (s.recheckSlot State.overCap .overCap k).recheckFits

/-- The highest tier of slot `k` whose draw is within its cap, or 0 (R46). -/
def State.capTier (s : State) (k : Slot) : Nat :=
  highestTier (fun t => decide (s.drawOf k t ≤ (s.policyOf k).cap)) (s.tiersOf k)

/-- Step 4 of R161: a recall of origin POLICY where the new cap lies below the granted draw or a RAISE's target draw. -/
def State.applyCap (k : Slot) (s : State) : State :=
  if (s.policyOf k).cap < Lease.term (s.leaseOf k) then s.recall k (s.capTier k) .policy else s

/-- A slot is disabled (R90). -/
def State.disable (k : Slot) (s : State) : State :=
  match (s.sessOf k).state with
  | .vacant | .barred | .faulted => s
  | .listening => s.enter k .barred
  | .rejected => (s.modSess k (fun x => { x with desc := none })).enter k .barred
  | .standby => (s.denyEntry k .barred).endSession k .barred .barred
  | .rampWait | .ramping => (s.denyEntry k .barred).recall k 0 .policy
  | .on => (s.denyEntry k .barred).recall k 0 .policy

/-- A slot is enabled (R90). -/
def State.enable (k : Slot) (s : State) : State :=
  match (s.sessOf k).state with
  | .barred => s.enter k .listening
  | .vacant | .listening | .rejected | .standby | .rampWait | .ramping | .on | .faulted => s

/-- Step 5 of R161: a change of enable acts on the session (R90). -/
def State.applyEnable (k : Slot) (old : PolicyRecord) (s : State) : State :=
  match old.enabled, (s.policyOf k).enabled with
  | true, false => s.disable k
  | false, true => s.enable k
  | true, true => s
  | false, false => s

/-- The work of an accepted APPLY_POLICY that changes the record (R161 steps 1 to 6). -/
def State.applyRecord (k : Slot) (r : PolicyRecord) (s : State) : State :=
  let old := s.policyOf k
  let t := (((s.setPolicy k r).applyKey k old).applyRecheck k).applyCap k
  (t.applyEnable k old).finish

/-- APPLY_POLICY for slot `k` (R161); a record equal to the live one is taken with OK and does nothing. -/
def State.applyPolicy (k : Slot) (s : State) : State :=
  let r := s.cmd.staging
  match s.applyCheck k r with
  | .ok => (if r = s.policyOf k then s else s.applyRecord k r).complete .ok
  | e => s.complete e

/-! ### SET_BUDGET -/

/-- The work of an accepted SET_BUDGET (R162, R28, R66). -/
def State.applyBudget (limit reserve : Nat) (s : State) : State :=
  let rose := decide (s.available < limit - reserve)
  let t := s.modSettings (fun x => { x with supplyLimit := limit, reserve := reserve })
  ((t.recheckFits.testShedding).wantPass rose).finish

/-- SET_BUDGET (R162). -/
def State.setBudget (limit reserve : Nat) (s : State) : State :=
  if 32767 < limit ∨ 32767 < reserve ∨ limit < reserve then s.complete .badArg
  else if limit - reserve < s.floorSum then s.complete .floorConflict
  else (s.applyBudget limit reserve).complete .ok

/-! ### ADMIT, EVICT, SET_TIER -/

/-- ADMIT for slot `k` (R163). -/
def State.admitSlot (k : Slot) (s : State) : State :=
  if (s.sessOf k).state = .standby ∧ (s.sessOf k).admitFlag = false then
    (((s.modSess k (fun x => { x with admitFlag := true })).bringup k).finish).complete .ok
  else s.complete .state

/-- The lease of an evicted slot (R164 step 3). -/
def State.evictLease (k : Slot) (hard : Bool) (s : State) : State :=
  match (s.sessOf k).state, hard with
  | .on, true => ((s.dropLease k).post .cut (some k) .host (s.grantedTier k)).settle k
  | _, _ => s.recall k 0 .host

/-- EVICT for slot `k` (R164). -/
def State.evictSlot (k : Slot) (hard : Nat) (s : State) : State :=
  if (s.leaseOf k).isNone ∧ (s.entryOf k).isNone then s.complete .state
  else if 1 < hard then s.complete .badArg
  else
    ((((s.modSess k (fun x => { x with admitFlag := false })).denyEntry k .cancelled).evictLease k (decide (hard = 1))).finish).complete
      .ok

/-- The work of a SET_TIER that passed its checks (R165). -/
def State.moveTier (k : Slot) (tier : Nat) (s : State) : State :=
  if s.grantedTier k < tier then s.takeClaim k .host tier tier
  else if tier < s.grantedTier k then s.recall k tier .host
  else s

/-- SET_TIER for slot `k` (R165). -/
def State.setTier (k : Slot) (tier : Nat) (s : State) : State :=
  if (s.sessOf k).state ≠ .on then s.complete .state
  else if s.tiersOf k < tier then s.complete .badArg
  else ((s.moveTier k tier).finish).complete .ok

/-! ### CLEAR_FAULT, RESCAN, STORE_POLICY -/

/-- CLEAR_FAULT for slot `k` (R93, R166). -/
def State.clearFault (k : Slot) (s : State) : State :=
  if (s.sessOf k).state = .faulted then
    let t := s.modSess k (fun x => { x with desc := none, lastEnd := .none })
    let t := t.modMon k (MonSlot.sessionEnded false)
    ((t.modLine k (Line.remove .session)).enter k (s.unopened k)).complete .ok
  else s.complete .state

/-- RESCAN for slot `k` (R79, R166). -/
def State.rescan (k : Slot) (s : State) : State :=
  if (s.sessOf k).state = .rejected then
    let t := s.modSess k (fun x => { x with desc := none })
    ((t.modLine k (Line.remove .session)).enter k .listening).complete .ok
  else s.complete .state

/-- The image a store writes: the live policy with the next generation (R148). -/
def State.snapshot (s : State) : Image :=
  { generation := s.store.activeGen + 1, records := s.cmd.policy, settings := s.cmd.settings }

/-- The copy the active-copy pointer does not name (R148). -/
def CopyId.other : CopyId → CopyId
  | .a => .b
  | .b => .a

/-- The content of a copy. -/
def PolicyStore.copyOf (p : PolicyStore) : CopyId → Copy
  | .a => p.copyA
  | .b => p.copyB

/-- The content of a copy replaced. -/
def PolicyStore.setCopy (c : CopyId) (x : Copy) (p : PolicyStore) : PolicyStore :=
  match c with
  | .a => { p with copyA := x }
  | .b => { p with copyB := x }

/-- The copy a store writes (R148). -/
def PolicyStore.target (p : PolicyStore) : CopyId := p.active.other

/-- The target copy's content replaced. -/
def PolicyStore.setTarget (x : Copy) (p : PolicyStore) : PolicyStore := p.setCopy p.target x

/-- STORE_POLICY is accepted (R148): BUSY, snapshot taken, the target being erased. -/
def State.storePolicy (s : State) : State :=
  s.modStore (fun p => { p.setTarget .partly with state := .erasing, snapshot := some s.snapshot, discard := false })

/-! ### Taking a command (R160) -/

/-- The command of a CMD word with its two arguments, as the Command Unit takes it. -/
def State.takeCommand (cmd arg0 arg1 : Word) (s : State) : State :=
  let slot := byteOf (bitField cmd 0 8)
  match bitField cmd 8 8 with
  | 1 => s.slotCommand slot State.applyPolicy
  | 2 => s.command (State.setBudget arg0.toNat arg1.toNat)
  | 3 => s.slotCommand slot State.admitSlot
  | 4 => s.slotCommand slot (fun k => State.evictSlot k arg0.toNat)
  | 5 => s.slotCommand slot (fun k => State.setTier k arg0.toNat)
  | 6 => s.slotCommand slot State.clearFault
  | 7 => s.slotCommand slot State.rescan
  | 8 => s.command State.storePolicy
  | _ => s.command (State.complete .badArg)

/-! ### The commands -/

/-- APPLY_POLICY. -/
def execApplyPolicy (slot : Byte) (s : State) : Host.Outcome State Fault Refusal :=
  .next (s.whenLoaded (State.slotCommand slot State.applyPolicy))

/-- SET_BUDGET. -/
def execSetBudget (limit reserve : Word) (s : State) : Host.Outcome State Fault Refusal :=
  .next (s.whenLoaded (State.command (State.setBudget limit.toNat reserve.toNat)))

/-- ADMIT. -/
def execAdmit (slot : Byte) (s : State) : Host.Outcome State Fault Refusal :=
  .next (s.whenLoaded (State.slotCommand slot State.admitSlot))

/-- EVICT. -/
def execEvict (slot : Byte) (hard : Word) (s : State) : Host.Outcome State Fault Refusal :=
  .next (s.whenLoaded (State.slotCommand slot (fun k => State.evictSlot k hard.toNat)))

/-- SET_TIER. -/
def execSetTier (slot : Byte) (tier : Word) (s : State) : Host.Outcome State Fault Refusal :=
  .next (s.whenLoaded (State.slotCommand slot (fun k => State.setTier k tier.toNat)))

/-- CLEAR_FAULT. -/
def execClearFault (slot : Byte) (s : State) : Host.Outcome State Fault Refusal :=
  .next (s.whenLoaded (State.slotCommand slot State.clearFault))

/-- RESCAN. -/
def execRescan (slot : Byte) (s : State) : Host.Outcome State Fault Refusal :=
  .next (s.whenLoaded (State.slotCommand slot State.rescan))

/-- STORE_POLICY. -/
def execStorePolicy (s : State) : Host.Outcome State Fault Refusal := .next (s.whenLoaded (State.command State.storePolicy))

end Sys2Proof.Machine
end

