-- ==== Sys2Proof/Machine/HostPort.lean ====
section
/-! DEFINITION. The Host Port: transactions, register reads and writes, the table window, the notice window, and CONTROL with the host port reset (chapters 9 and 10). -/

namespace Sys2Proof.Machine

/-! ### Transactions -/

/-- The address byte that opens a transaction (R154, section 11.1): bit 7 set for a write, bits 6..0 the starting address. -/
def addressByte (write : Bool) (addr : BitVec 7) : Byte := BitVec.cons write addr

/-- The transaction that an address byte opens (R154). -/
def Burst.opened (b : Byte) : Burst := { write := b.getLsbD 7, next := b.extractLsb' 0 7 }

/-- CS_N falls and the address byte is taken (R154). -/
def HostPort.begin (b : Byte) (h : HostPort) : HostPort := { h with burst := some (Burst.opened b) }

/-- The Host Port when CS_N rises (R154, R174): the captures end, the notice pointer returns to 0, nothing stays armed. -/
def HostPort.release (h : HostPort) : HostPort :=
  { h with burst := none, budget := none, noticePtr := 0, armed := false }

/-- TRANSACTION_END (R154, R160): an armed command is taken with the arguments as they stand. -/
def State.endTransaction (s : State) : State :=
  let t := s.modHost HostPort.release
  if s.host.armed then t.whenLoaded (State.takeCommand s.host.cmd s.host.arg0 s.host.arg1) else t

/-- The port stands where a word at `addr` is the next (R154): a transaction is all reads or all writes and its addresses run
on, so any other word belongs to a new transaction, and CS_N has risen since the last (log entry 30). -/
def State.reach (write : Bool) (addr : BitVec 7) (s : State) : State :=
  match s.host.burst with
  | none => s.modHost (HostPort.begin (addressByte write addr))
  | some b =>
    if b = { write := write, next := addr } then s
    else s.endTransaction.modHost (HostPort.begin (addressByte write addr))

/-- The transaction in progress has taken its next word (R154). -/
def HostPort.nextWord (h : HostPort) : HostPort :=
  { h with burst := h.burst.map (fun b => { b with next := nextAddr b.next }) }

/-- A word at `addr` is taken in its transaction (R154). -/
def State.touch (write : Bool) (addr : BitVec 7) (s : State) : State := (s.reach write addr).modHost HostPort.nextWord

/-- A word is driven on SDO. -/
def State.drive (w : Word) (s : State) : State := s.modHost (fun h => { h with sdo := w })

/-! ### Reads -/

/-- A pointer into a record of `n` words after one word (R158). -/
def advance (p n : Nat) : Nat := if n ≤ p + 1 then 0 else p + 1

/-- The word pointer of the table window advances (R158). -/
def HostPort.advanceTable (h : HostPort) : HostPort := { h with wordPtr := advance h.wordPtr (recordWords (selCode h.tableSel)) }

/-- A MONITOR capture clears the slot's peak (R129). -/
def State.clearPeak (sel : Word) (s : State) : State :=
  if selCode sel = 6 then
    match slotOf? (selIndex sel) with
    | none => s
    | some k => s.modMon k (fun m => { m with peak := 0 })
  else s

/-- Word `p` of the read buffer `buf` (R158): an empty buffer reads 0, and beyond a shorter record the manual gives no value
(log entry 52). -/
def bufferWord (buf : List Word) (p : Nat) : Word :=
  match buf[p]? with
  | some w => w
  | none => if buf = [] then 0 else Config.beyondBuffer buf p

/-- A read of TABLE_DATA (R158): at pointer 0 the selected record is captured, its peak cleared for MONITOR, and word 0
returned; above 0 the word comes from the read buffer. -/
def State.readTable (s : State) : State :=
  if s.host.wordPtr = 0 then
    ((s.clearPeak s.host.tableSel).modHost (fun h => { h with tableBuf := s.recordOf h.tableSel }.advanceTable)).drive
      ((s.recordOf s.host.tableSel)[0]?.getD 0)
  else (s.modHost HostPort.advanceTable).drive (bufferWord s.host.tableBuf s.host.wordPtr)

/-- Word 0 of NOTICE_DATA is fetched (R174): the head record moves to the read buffer, or the empty record fills it. -/
def State.takeNotice (s : State) : State :=
  match s.notices.records with
  | [] => s.modHost (fun h => { h with noticeBuf := .emptyRecord })
  | n :: rest =>
    { s with notices := { s.notices with records := rest }, host := { s.host with noticeBuf := .record n } }

/-- A read of NOTICE_DATA (R174). -/
def State.readNotice (s : State) : State :=
  let t := if s.host.noticePtr = 0 then s.takeNotice else s
  (t.modHost (fun h => { h with noticePtr := advance h.noticePtr 3 })).drive (t.host.noticeBuf.word s.host.noticePtr)

/-- The address is one of the seven budget registers. -/
def isBudget (addr : BitVec 7) : Bool := decide (0x04 ≤ addr.toNat) && decide (addr.toNat ≤ 0x0A)

/-- The budget capture of the transaction: the one it has, or one made now (R20). -/
def State.capture (s : State) : BudgetCapture := s.host.budget.getD s.budgetNow

/-- A read of a budget register (R20). -/
def State.readBudget (addr : BitVec 7) (s : State) : State :=
  (s.modHost (fun h => { h with budget := some s.capture })).drive ((s.capture.at? addr).getD 0)

/-- A read word is fetched at `addr` (R154, R155). Until the load is complete a read returns the reset value and has no side
effect (R145). -/
def State.fetch (addr : BitVec 7) (s : State) : State :=
  let s := s.touch false addr
  if s.store.startDone = false then s.drive (unloadedRegister addr)
  else if addr = 0x19 then s.readTable
  else if addr = 0x1A then s.readNotice
  else if isBudget addr then s.readBudget addr
  else s.drive (s.register addr)

/-! ### Writes -/

/-- STATUS.BAD_WRITE is set. -/
def State.badWrite (s : State) : State := s.modHost (fun h => { h with badWrite := true })

/-- A write of STATUS: a 1 clears its sticky flag; every other bit is ignored (R155, R177). -/
def HostPort.clearFlags (w : Word) (h : HostPort) : HostPort :=
  { h with cmdDone := h.cmdDone && !w.getLsbD 3, cmdOverrun := h.cmdOverrun && !w.getLsbD 4,
           badWrite := h.badWrite && !w.getLsbD 5 }

/-- A write of a setting register (R156): taken whole, or ignored with BAD_WRITE. -/
def State.writeSetting (r : SettingReg) (w : Word) (s : State) : State :=
  match settingApply r w s.settings with
  | none => s.badWrite
  | some x => s.modSettings (fun _ => x)

/-- A new PASS_LIMIT: the counts above it are clamped to it, and a pass follows a change (R43). -/
def State.setPassLimit (n : Nat) (s : State) : State :=
  let changed := decide (n ≠ s.settings.passLimit)
  let t := s.modSettings (fun x => { x with passLimit := n })
  ((t.withQueue (s.alloc.queue.map (fun e => { e with passCount := min e.passCount n }))).wantPass changed).finish

/-- A write of PASS_LIMIT (R43, R156). -/
def State.writePassLimit (w : Word) (s : State) : State := if 15 < w.toNat then s.badWrite else s.setPassLimit w.toNat

/-- A STAGING record with word `i` stored into the fields it carries (R159, section 11.3). -/
def PolicyRecord.store (r : PolicyRecord) (i : Nat) (w : Word) : PolicyRecord :=
  match i with
  | 0 => { r with enabled := w.getLsbD 0, cls := if w.getLsbD 1 then .essential else .deferrable,
                  startMode := if w.getLsbD 2 then .auto else .host, rank := bitField w 4 4 }
  | 1 => { r with floor := w.toNat }
  | _ => { r with cap := w.toNat }

/-- A write of TABLE_DATA (R159): into STAGING when it is selected, else discarded with BAD_WRITE; the pointer advances. -/
def State.writeTable (w : Word) (s : State) : State :=
  let t := s.modHost HostPort.advanceTable
  if selCode s.host.tableSel = 1 then
    { t with cmd := { t.cmd with staging := t.cmd.staging.store s.host.wordPtr w } }
  else t.badWrite

/-- The host port reset (R167, R168, R176). A store in progress runs on and its result is discarded (R152). -/
def State.portReset (s : State) : State :=
  { s with
    notices := NoticeQueue.reset
    cmd := { s.cmd with staging := PolicyRecord.factory, result := .ok }
    host := { s.host with tableBuf := [], noticeBuf := .empty, wordPtr := 0, noticePtr := 0, cmdDone := false,
                          cmdOverrun := false, badWrite := false, armed := false }
    store := { s.store with discard := s.busy } }

/-- A write of CONTROL (R157): the four stored fields, then the host port reset when `reset`; a change of BACKFILL, or of
PREEMPT to 1, makes a pass due at the end of the happening (R37). -/
def State.writeControl (backfill preempt noticeEn cmdEn reset : Bool) (s : State) : State :=
  let due := (backfill != s.settings.backfill) || (preempt && !s.settings.preempt)
  let t := (s.modSettings (fun x => { x with backfill := backfill, preempt := preempt })).modHost
    (fun h => { h with intNoticeEn := noticeEn, intCmdEn := cmdEn })
  let t := t.wantPass due
  (if reset then t.portReset else t).finish

/-- A write of CMD arms a command (R160). -/
def HostPort.arm (w : Word) (h : HostPort) : HostPort := { h with cmd := w, armed := true }

/-- A write of TABLE_SEL (R158). -/
def HostPort.select (w : Word) (h : HostPort) : HostPort := { h with tableSel := w, wordPtr := 0 }

/-- A whole write word taken at `addr`, after the load (R155). -/
def State.writeLoaded (addr : BitVec 7) (w : Word) (s : State) : State :=
  match addr.toNat with
  | 0x02 => s.modHost (HostPort.clearFlags w)
  | 0x03 => s.writeControl (w.getLsbD 0) (w.getLsbD 1) (w.getLsbD 2) (w.getLsbD 3) (w.getLsbD 4)
  | 0x0B => s.modHost (HostPort.arm w)
  | 0x0C => s.modHost (fun h => { h with arg0 := w })
  | 0x0D => s.modHost (fun h => { h with arg1 := w })
  | 0x15 => s.writePassLimit w
  | 0x18 => s.modHost (HostPort.select w)
  | 0x19 => s.writeTable w
  | _ =>
    match settingAt addr with
    | some r => s.writeSetting r w
    | none => s

/-- A write word at `addr` (R154). Until the load is complete it is discarded without a flag (R145). -/
def State.write (addr : BitVec 7) (w : Word) (s : State) : State :=
  (s.touch true addr).whenLoaded (State.writeLoaded addr w)

/-- A write of CONTROL that takes `f` (R157), one of the rows that name a part of it. -/
def State.control (f : State → State) (s : State) : State := (s.touch true 0x03).whenLoaded f

/-! ### The commands -/

/-- SET_BACKFILL. -/
def execSetBackfill (v : Bool) (s : State) : Host.Outcome State Fault Refusal :=
  .next (s.control (fun s => s.writeControl v s.settings.preempt s.host.intNoticeEn s.host.intCmdEn false))

/-- SET_PREEMPT. -/
def execSetPreempt (v : Bool) (s : State) : Host.Outcome State Fault Refusal :=
  .next (s.control (fun s => s.writeControl s.settings.backfill v s.host.intNoticeEn s.host.intCmdEn false))

/-- SET_INT_ENABLES. -/
def execSetIntEnables (noticeEn cmdEn : Bool) (s : State) : Host.Outcome State Fault Refusal :=
  .next (s.control (fun s => s.writeControl s.settings.backfill s.settings.preempt noticeEn cmdEn false))

/-- PORT_RESET. -/
def execPortReset (s : State) : Host.Outcome State Fault Refusal :=
  .next (s.control (fun s =>
    s.writeControl s.settings.backfill s.settings.preempt s.host.intNoticeEn s.host.intCmdEn true))

/-- SETTING_WRITE. -/
def execSettingWrite (r : SettingReg) (w : Word) (s : State) : Host.Outcome State Fault Refusal :=
  .next (s.write (settingAddr r) w)

/-- PASS_LIMIT_WRITE. -/
def execPassLimitWrite (w : Word) (s : State) : Host.Outcome State Fault Refusal := .next (s.write 0x15 w)

/-- STATUS_W1C. -/
def execStatusW1C (w : Word) (s : State) : Host.Outcome State Fault Refusal := .next (s.write 0x02 w)

/-- TABLE_SEL_WRITE. -/
def execTableSelWrite (w : Word) (s : State) : Host.Outcome State Fault Refusal := .next (s.write 0x18 w)

/-- TABLE_DATA_READ. -/
def execTableDataRead (s : State) : Host.Outcome State Fault Refusal := .next (s.fetch 0x19)

/-- TABLE_DATA_WRITE. -/
def execTableDataWrite (w : Word) (s : State) : Host.Outcome State Fault Refusal := .next (s.write 0x19 w)

/-- NOTICE_DATA_READ. -/
def execNoticeDataRead (s : State) : Host.Outcome State Fault Refusal := .next (s.fetch 0x1A)

/-- BUDGET_REGISTER_READ. -/
def execBudgetRegisterRead (addr : BitVec 7) (s : State) : Host.Outcome State Fault Refusal := .next (s.fetch addr)

/-- REGISTER_WRITE. -/
def execRegisterWrite (addr : BitVec 7) (w : Word) (s : State) : Host.Outcome State Fault Refusal := .next (s.write addr w)

/-- TRANSACTION_END. -/
def execTransactionEnd (s : State) : Host.Outcome State Fault Refusal := .next s.endTransaction

end Sys2Proof.Machine
end

