-- ==== Sys2Proof/Machine/Messages.lean ====
section
/-! DEFINITION. The module's messages as the Session Manager takes them (chapter 4): HELLO, CLAIM, YIELD, READY, FAULT, NONE. -/

namespace Sys2Proof.Machine

/-- The slot's protocol errors rise by 1, up to 255 (R83). -/
def State.countError (k : Slot) (s : State) : State :=
  s.modSess k (fun x => { x with protoErrors := min 255 (x.protoErrors + 1) })

/-! ### HELLO -/

/-- The draws ascend strictly. -/
def ascending : List Word → Bool
  | a :: b :: rest => decide (a.toNat < b.toNat) && ascending (b :: rest)
  | [_] => true
  | [] => true

/-- Check 1 of a HELLO holds (R78). -/
def Descriptor.listOk (d : Descriptor) : Bool :=
  decide (1 ≤ d.tiers) && decide (d.tiers ≤ 6) && d.draws.all (fun w => decide (1 ≤ w.toNat) && decide (w.toNat ≤ 4095)) &&
    ascending d.draws && decide (d.preferred.toNat ≤ d.tiers) && decide (d.flags = 0)

/-- The reason a HELLO is refused, or none (R78). -/
def helloFault (cap : Nat) (d : Descriptor) : Option Reason :=
  if d.listOk = false then some .badList else if cap < d.drawOf 1 then some .overCap else none

/-- A HELLO is refused (R78). -/
def State.refuseHello (k : Slot) (d : Descriptor) (r : Reason) (s : State) : State :=
  (((s.modSess k (fun x => { x with refusal := r, desc := some d })).enter k .rejected).modLine k
    (Line.queue .session (.refuse r))).post .sessionRefused (some k) r d.kind.toNat

/-- The tag after `t`, wrapping from 255 to 1 (R80). -/
def nextTag (t : Byte) : Byte := if t = 255 then 1 else t + 1

/-- A HELLO opens a session (R80): tag, descriptor, WELCOME, STANDBY, the admit flag from the start mode, SESSION_OPEN, and
on an AUTO slot the BRINGUP entry. -/
def State.openSession (k : Slot) (d : Descriptor) (s : State) : State :=
  let auto := decide ((s.policyOf k).startMode = .auto)
  let tag := nextTag (s.sessOf k).tag
  let s := s.modSess k (fun x => { x with tag := tag, desc := some d, lastEnd := .none, admitFlag := auto })
  let s := (s.enter k .standby).modLine k (Line.queue .session (.welcome tag))
  let s := s.post .sessionOpen (some k) (if auto then .bringup else .none) tag.toNat
  if auto then s.bringup k else s

/-- A HELLO is checked, and refused or accepted (R78, R80). -/
def State.validateHello (k : Slot) (d : Descriptor) (s : State) : State :=
  match helloFault (s.policyOf k).cap d with
  | some r => s.refuseHello k d r
  | none => s.openSession k d

/-- A restart HELLO ends the old session (R87): CUT if the gate was on, then SESSION_CLOSED; the HELLO is then taken as in LISTENING. -/
def State.restart (k : Slot) (s : State) : State :=
  let t := s.dropLease k
  let t := if (s.rampOf k).gate then t.post .cut (some k) .moduleRestart (s.grantedTier k) else t
  t.endSession k .moduleRestart .listening

/-- No session rests in STANDBY on a disabled slot (R91): one just opened there ends with cause BARRED (log entry 39). -/
def State.barStandby (k : Slot) (s : State) : State :=
  if (s.sessOf k).state = .standby ∧ (s.policyOf k).enabled = false then s.endSession k .barred .barred else s

/-- A HELLO reaches the Session Manager; it is taken with any tag (R81, R83). -/
def State.hearHello (k : Slot) (d : Descriptor) (s : State) : State :=
  match (s.sessOf k).state with
  | .listening => ((s.validateHello k d).barStandby k).finish
  | .standby | .rampWait | .ramping | .on => (((s.restart k).validateHello k d).barStandby k).finish
  | .rejected | .faulted => s.countError k
  | .vacant | .barred => s

/-! ### The other messages -/

/-- A message other than HELLO is dispatched only with the tag frames to the slot bear now; another tag is discarded without
counting (R81). -/
def State.dispatch (k : Slot) (tag : Byte) (f : State → State) (s : State) : State :=
  if tag = s.frameTag k then f s else s

/-- The answer to a module CLAIM still queued at the end of its happening: HOLD with its position (R31). -/
def State.answerClaim (k : Slot) (s : State) : State :=
  match s.entryOf k with
  | none => s
  | some _ => s.modLine k (Line.queueClaim (.hold (s.positionOf k)))

/-- A CLAIM by session state (R83, R84). -/
def State.hearClaim (k : Slot) (wanted least : Nat) (s : State) : State :=
  match (s.sessOf k).state with
  | .standby | .on => ((s.takeClaim k .claim wanted least).finish).answerClaim k
  | .listening | .rampWait | .ramping | .rejected | .faulted => s.countError k
  | .vacant | .barred => s

/-- A YIELD to `u` on a lease that carries no transition (R85). -/
def State.yieldPlain (k : Slot) (u : Nat) (s : State) : State :=
  match s.leaseOf k with
  | none => s
  | some l =>
    if l.tier ≤ u then s
    else if u = 0 then ((s.dropLease k).post .recallDone (some k) .yielded 0).settle k
    else (s.setLease k (some { l with tier := u, draw := s.drawOf k u })).post .recallDone (some k) .yielded u

/-- A YIELD taken in ON (R85, R50), reported with its tag (R9). -/
def State.yieldOn (k : Slot) (tag : Byte) (u : Nat) (s : State) : State :=
  match s.leaseOf k with
  | none => s
  | some l =>
    if l.tag = tag then
      match l.trans with
      | some (.lower t _ o _) => if u ≤ t then s.lowerAnswered k u o else s
      | some (.raise _ _ _) => (s.cancelRaise k).yieldPlain k u
      | none => s.yieldPlain k u
    else s

/-- A YIELD by session state (R83). -/
def State.hearYield (k : Slot) (tag : Byte) (u : Nat) (s : State) : State :=
  match (s.sessOf k).state with
  | .on => (s.yieldOn k tag u).finish
  | .standby => s
  | .listening | .rampWait | .ramping | .rejected | .faulted => s.countError k
  | .vacant | .barred => s

/-- A READY taken in ON: it ends a LOWER whose target it meets and is ignored otherwise (R50). -/
def State.readyOn (k : Slot) (tag : Byte) (u : Nat) (s : State) : State :=
  match s.leaseOf k with
  | none => s
  | some l =>
    match l.trans with
    | some (.lower t _ o _) => if l.tag = tag ∧ u ≤ t then s.lowerAnswered k u o else s
    | some (.raise _ _ _) => s
    | none => s

/-- A READY by session state (R83). -/
def State.hearReady (k : Slot) (tag : Byte) (u : Nat) (s : State) : State :=
  match (s.sessOf k).state with
  | .on => (s.readyOn k tag u).finish
  | .standby => s
  | .listening | .rampWait | .ramping | .rejected | .faulted => s.countError k
  | .vacant | .barred => s

/-- A FAULT taken in ON (R86): the lease is dropped, CUT carries the fault code, and the session settles. -/
def State.faultOn (k : Slot) (tag : Byte) (code : Nat) (s : State) : State :=
  match s.leaseOf k with
  | none => s
  | some l =>
    if l.tag = tag then
      (((s.dropLease k).modSess k (fun x => { x with lastEnd := .moduleFault })).post .cut (some k) .moduleFault code).settle k
    else s

/-- A FAULT by session state (R83). -/
def State.hearFault (k : Slot) (tag : Byte) (code : Nat) (s : State) : State :=
  match (s.sessOf k).state with
  | .on => (s.faultOn k tag code).finish
  | .standby => s
  | .listening | .rampWait | .ramping | .rejected | .faulted => s.countError k
  | .vacant | .barred => s

/-! ### The commands -/

/-- HELLO. -/
def execHello (k : Slot) (tag : Byte) (kind : Word) (serial : BitVec 32) (flags preferred : Byte) (draws : List Word)
    (s : State) : Host.Outcome State Fault Refusal :=
  .next ((s.taken (.hello k tag kind serial flags preferred draws)).whenLoaded
    (State.hearHello k { kind := kind, serial := serial, flags := flags, preferred := preferred, draws := draws }))

/-- CLAIM. -/
def execClaim (k : Slot) (tag wanted least : Byte) (s : State) : Host.Outcome State Fault Refusal :=
  .next ((s.taken (.claim k tag wanted least)).whenLoaded
    (State.dispatch k tag (State.hearClaim k wanted.toNat least.toNat)))

/-- YIELD. -/
def execYield (k : Slot) (tag tier : Byte) (s : State) : Host.Outcome State Fault Refusal :=
  .next ((s.taken (.yieldTier k tag tier)).whenLoaded (State.dispatch k tag (State.hearYield k tag tier.toNat)))

/-- READY. -/
def execReady (k : Slot) (tag tier : Byte) (s : State) : Host.Outcome State Fault Refusal :=
  .next ((s.taken (.ready k tag tier)).whenLoaded (State.dispatch k tag (State.hearReady k tag tier.toNat)))

/-- FAULT. -/
def execFault (k : Slot) (tag code : Byte) (s : State) : Host.Outcome State Fault Refusal :=
  .next ((s.taken (.moduleFault k tag code)).whenLoaded (State.dispatch k tag (State.hearFault k tag code.toNat)))

/-- NONE_MESSAGE: a NONE has no effect (R77, R83). -/
def execNoneMessage (k : Slot) (tag : Byte) (s : State) : Host.Outcome State Fault Refusal :=
  .next (s.taken (.noneMessage k tag))

end Sys2Proof.Machine
end

