-- ==== Sys2Proof/Machine/Presence.lean ====
section
/-! DEFINITION. The PRESENT inputs: the debounce, insertion and removal (chapter 4, section 4.2). -/

namespace Sys2Proof.Machine

/-- The presence timer of a slot in state `st` when PRESENT goes to `active` (R75, R76): in VACANT it runs toward insertion
while PRESENT is active, elsewhere toward removal while it is inactive. -/
def presenceOn (st : SessState) (active : Bool) : Presence :=
  match st with
  | .vacant => if active then .toInsertion 0 else .idle
  | .barred | .listening | .rejected | .standby | .rampWait | .ramping | .on | .faulted =>
    if active then .idle else .toRemoval 0

/-- The presence timer runs toward insertion. -/
def Presence.inserting : Presence → Bool
  | .toInsertion _ => true
  | .toRemoval _ => false
  | .idle => false

/-- The presence timer runs toward removal. -/
def Presence.removing : Presence → Bool
  | .toRemoval _ => true
  | .toInsertion _ => false
  | .idle => false

/-- The presence timer of slot `k` restarts for the level its input has taken (R75, R76). -/
def State.restartPresence (k : Slot) (active : Bool) (s : State) : State :=
  s.modSess k (fun x => { x with presence := presenceOn x.state active })

/-- INSERTION at slot `k` (R75): LISTENING if the slot is enabled, else BARRED. Only a VACANT slot whose timer runs toward
insertion is inserted. -/
def State.insert (k : Slot) (s : State) : State :=
  if (s.sessOf k).state = .vacant ∧ (s.sessOf k).presence.inserting = true then
    (s.modSess k (fun x => { x with presence := .idle })).enter k (s.unopened k)
  else s

/-- The tag SESSION_CLOSED carries at a removal: the open session's, or 0 (R76). -/
def Session.closingTag (x : Session) : Nat := if x.state.isOpen then x.tag.toNat else 0

/-- What removal does to slot `k` (R76): the lease is dropped, the session torn down, CUT posted if the gate was on, then
SESSION_CLOSED. -/
def State.vacate (k : Slot) (s : State) : State :=
  let t := ((s.dropLease k).teardown k .removed .vacant).modSess k (fun x => { x with presence := .idle })
  let t := if (s.rampOf k).gate then t.post .cut (some k) .removed (s.grantedTier k) else t
  t.post .sessionClosed (some k) .removed (s.sessOf k).closingTag

/-- REMOVAL at slot `k` (R76). Only a slot that is not VACANT and whose timer runs toward removal is removed. -/
def State.removal (k : Slot) (s : State) : State :=
  if (s.sessOf k).state ≠ .vacant ∧ (s.sessOf k).presence.removing = true then (s.vacate k).finish else s

/-- PRESENT_CHANGE: the input's level is the pin's own, whatever the load; a write of the level it has is no change. -/
def State.presentChange (k : Slot) (active : Bool) (s : State) : State :=
  if s.present.get k = active then s
  else ({ s with present := s.present.set k active }).whenLoaded (State.restartPresence k active)

/-! ### The commands -/

/-- PRESENT_CHANGE. -/
def execPresentChange (k : Slot) (active : Bool) (s : State) : Host.Outcome State Fault Refusal :=
  .next (s.presentChange k active)

/-- INSERTION. -/
def execInsertion (k : Slot) (s : State) : Host.Outcome State Fault Refusal := .next (s.whenLoaded (State.insert k))

/-- REMOVAL. -/
def execRemoval (k : Slot) (s : State) : Host.Outcome State Fault Refusal := .next (s.whenLoaded (State.removal k))

end Sys2Proof.Machine
end

