-- ==== Sys2Proof/Machine/Ramp.lean ====
section
/-! DEFINITION. The Power Path Unit's own happenings: ramp start, ramp done, ramp timeout, the end of a back-off (chapter 6). -/

namespace Sys2Proof.Machine

/-- The back-off after a ramp timeout, in ms (R121). -/
def backoffTime : Nat := 100

/-- The ramp resource is freed, when slot `k` holds it. -/
def State.freeResource (k : Slot) (s : State) : State :=
  { s with power := { s.power with holder := if s.power.holder = some k then none else s.power.holder } }

/-- The output-good watch of slot `k` is disarmed; its count stays (R130). -/
def State.disarm (k : Slot) (s : State) : State := s.modMon k (fun m => { m with watchArmed := false })

/-- GRANT(granted tier, short) is queued for the lease of slot `k` at ramp done (R11). -/
def State.queueRampGrant (k : Slot) (s : State) : State :=
  match s.leaseOf k with
  | none => s
  | some l => s.modLine k (Line.queueClaim (.grant l.tier l.short))

/-- The ramp of slot `k` ends with success (R120): the record is NONE with retry count 0, the resource is free, the session
is ON and the GRANT is queued. The gate stays on. -/
def State.completeRamp (k : Slot) (s : State) : State :=
  (((((s.modRamp k (fun r => { r with state := .none, tag := 0, retry := 0, timer := 0 })).freeResource k).disarm k).modSess k
    (fun x => { x with state := .on })).queueRampGrant k)

/-- RAMP_DONE (R120): the report is discarded unless slot `k` is RAMPING under its tag. -/
def State.rampDone (k : Slot) (tag : Byte) (s : State) : State :=
  if (s.rampOf k).state = .ramping ∧ (s.rampOf k).tag = tag then (s.completeRamp k).finish else s

/-- A timed-out ramp that is retried (R121): back-off of 100 ms, RAMP_WAIT with the lease kept, RAMP_RETRY with the new count. -/
def State.backOff (k : Slot) (s : State) : State :=
  let n := (s.rampOf k).retry + 1
  ((((s.modRamp k (fun r => { r with state := .backoff, gate := false, retry := n, timer := backoffTime })).freeResource k).disarm
    k).modSess k (fun x => { x with state := .rampWait })).post .rampRetry (some k) .none n

/-- RAMP_TIMEOUT at slot `k` (R121). -/
def State.rampTimedOut (k : Slot) (s : State) : State :=
  if (s.rampOf k).state = .ramping then
    (if (s.rampOf k).retry < s.settings.rampRetries then s.backOff k else s.faultSlot k .rampFail).finish
  else s

/-- BACKOFF_END at slot `k` (R122): the slot rejoins the Ramp Queue with its record's class and retry count. -/
def State.backoffEnded (k : Slot) (s : State) : State :=
  if (s.rampOf k).state = .backoff then (s.joinRamp k).finish else s

/-! ### The commands -/

/-- RAMP_START (R119): the resource is handed to the head of the Ramp Queue where R118 allows it. -/
def execRampStart (s : State) : Host.Outcome State Fault Refusal := .next (s.whenLoaded State.handOn)

/-- RAMP_DONE. -/
def execRampDone (k : Slot) (tag : Byte) (s : State) : Host.Outcome State Fault Refusal :=
  .next ((s.taken (.rampDone k tag)).whenLoaded (State.rampDone k tag))

/-- RAMP_TIMEOUT. -/
def execRampTimeout (k : Slot) (s : State) : Host.Outcome State Fault Refusal :=
  .next (s.whenLoaded (State.rampTimedOut k))

/-- BACKOFF_END. -/
def execBackoffEnd (k : Slot) (s : State) : Host.Outcome State Fault Refusal := .next (s.whenLoaded (State.backoffEnded k))

end Sys2Proof.Machine
end

