-- ==== Sys2Proof/Machine/SlotLine.lean ====
section
/-! DEFINITION. The Slot Line Controllers (chapter 5): choosing and sending frames, failed attempts, link loss and recovery, delivery, link grace. -/

namespace Sys2Proof.Machine

/-! ### Choosing a frame -/

/-- The first non-empty channel in the order session, recall, claim (R100). -/
def Line.first (l : Line) : Option (Channel × DownMsg) :=
  match l.outSession, l.outRecall, l.outClaim with
  | some m, _, _ => some (.session, m)
  | none, some m, _ => some (.recall, m)
  | none, none, some m => some (.claim, m)
  | none, none, none => none

/-- What an SLC makes itself when its outbox is empty (R97, R102). -/
def SessState.pollMsg : SessState → Option DownMsg
  | .listening => some .probe
  | .standby | .rampWait | .ramping | .on => some .poll
  | .vacant | .barred | .rejected | .faulted => none

/-- A frame not sent yet. Its sequence bit is fixed when it is first sent (R104). -/
def freshFrame (m : DownMsg) (c : Option Channel) (tag : Byte) : PendingFrame :=
  { frame := { msg := m, tag := tag, seq := false, chan := c }, message := .stands, sent := false }

/-- Steps 3 and 4 of R100: the first non-empty channel's message, else a POLL or PROBE when the poll timer asks for one. -/
def State.chooseNew (s : State) (k : Slot) (byPoll : Bool) : Option PendingFrame :=
  match (s.lineOf k).first with
  | some (c, m) => some (freshFrame m (some c) (s.frameTag k))
  | none => if byPoll then ((s.sessOf k).state.pollMsg).map (fun m => freshFrame m none (s.frameTag k)) else none

/-- The new choice `n` beside the pending frame `p`, whose retries are exhausted: the next POLL or PROBE is that same frame (R104);
any other choice takes its place. Its retry count stays (log entry 53). -/
def PendingFrame.againOr (p n : PendingFrame) : PendingFrame × Bool :=
  if n.frame.chan = none ∧ n.frame.msg = p.frame.msg then ({ p with message := .stands }, false) else (n, true)

/-- The frame an SLC sends next (R100), and whether it is a new choice: the pending frame while its message stands and its retries
are not exhausted or the link is LOST, the replacement of its message, else steps 3 and 4. A frame whose message was removed is
given up; one whose retries are exhausted is sent again where step 4 asks for it (R104). -/
def State.chooseFrame (s : State) (k : Slot) (byPoll : Bool) : Option (PendingFrame × Bool) :=
  match (s.lineOf k).pendingFrame with
  | some p =>
    match p.message with
    | .stands => some (p, false)
    | .waits =>
      if (s.lineOf k).lost then some ({ p with message := .stands }, false) else (s.chooseNew k byPoll).map p.againOr
    | .replaced =>
      match p.frame.chan, p.frame.chan.bind (s.lineOf k).chan with
      | some c, some m => some (freshFrame m (some c) (s.frameTag k), true)
      | _, _ => (s.chooseNew k byPoll).map (fun p => (p, true))
    | .removed => (s.chooseNew k byPoll).map (fun p => (p, true))
  | none => (s.chooseNew k byPoll).map (fun p => (p, true))

/-- The pending frame's retries are exhausted and it waits for the poll timer (R107). -/
def PendingFrame.waiting (p : PendingFrame) : Bool := p.message == .waits

/-- A frame was due and nothing is left to send: a pending frame whose message was removed is given up (R100), one that waits for
the poll timer stays (R104, log entry 53), and the SLC rests, its poll timer running where it polls (R102, log entry 24). -/
def Line.rest (polls : Bool) (period : Nat) (l : Line) : Line :=
  { l with
    phase := .idle
    pendingFrame := l.pendingFrame.filter PendingFrame.waiting
    poll := if polls && l.poll.isNone then some period else l.poll }

/-- The chosen frame goes onto the line (R95, R104): a new frame takes the opposite sequence bit, which becomes the held
one; a frame sent before keeps its bit. The poll timer stops. -/
def Line.send (p : PendingFrame) (fresh : Bool) (l : Line) : Line :=
  let seq := if p.sent then p.frame.seq else !l.seq
  let f : Frame := { p.frame with seq := seq }
  { l with pendingFrame := some { frame := f, message := .stands, sent := true }
           retries := if fresh then 0 else l.retries
           seq := if p.sent then l.seq else seq
           poll := none, phase := .awaiting f 0, wire := f.bytes }

/-- FRAME_SEND at slot `k` (R96, R100). -/
def State.sendFrame (k : Slot) (s : State) : State :=
  match (s.lineOf k).phase with
  | .due _ byPoll =>
    match s.chooseFrame k byPoll with
    | none => s.modLine k (Line.rest (s.sessOf k).state.polls s.settings.pollPeriod)
    | some (p, fresh) => s.modLine k (Line.send p fresh)
  | .idle | .awaiting _ _ | .receiving _ _ => s

/-! ### Judging an attempt -/

/-- The counter of a failure kind rises by 1, up to 255 (R101). -/
def Counters.bump (c : Counters) : FailKind → Counters
  | .noResponse => { c with noResponse := min 255 (c.noResponse + 1) }
  | .badFormat => { c with badFormat := min 255 (c.badFormat + 1) }
  | .badCrc => { c with badCrc := min 255 (c.badCrc + 1) }
  | .badKind => { c with badKind := min 255 (c.badKind + 1) }
  | .badTag => { c with badTag := min 255 (c.badTag + 1) }
  | .badEcho => { c with badEcho := min 255 (c.badEcho + 1) }

/-- After a judgment that leaves no retry: the outbox's next message is due, or with the outbox empty the poll timer starts
where the slot polls (R100, R102). -/
def Line.next (polls : Bool) (period : Nat) (l : Line) : Line :=
  let l := { l with phase := .idle }
  if l.outboxEmpty then (if polls then { l with poll := some period } else l) else l.kick

/-- The pending frame's message has been removed and not replaced (R99, R100). -/
def Line.messageGone (l : Line) : Bool :=
  match l.pendingFrame with
  | some p => p.message == .removed
  | none => false

/-- A failed attempt with a retry left (R107): the frame is due again. A frame whose message was removed is given up instead, and
the SLC goes on (R100). The poll timer starts where the judgment leaves the outbox empty and the slot polls (R102). -/
def Line.retry (polls : Bool) (period : Nat) (l : Line) : Line :=
  if l.messageGone then Line.next polls period { l with pendingFrame := none }
  else
    { l with
      retries := l.retries + 1
      phase := .due 0 false
      poll := if polls && l.outboxEmpty then some period else l.poll }

/-- The link becomes LOST (R108): grace and poll timers start, LINK_LOST is posted; outbox and pending frame are kept. -/
def State.loseLink (k : Slot) (s : State) : State :=
  (s.modLine k (fun l => { l with lost := true, phase := .idle, grace := some (s.settings.linkGrace * 10),
                                  poll := some s.settings.pollPeriod })).post
    .linkLost (some k) .none (s.sessOf k).tag.toNat

/-- The retries of a frame whose message stands are exhausted in LISTENING: it waits for the poll timer (R107). -/
def PendingFrame.exhaust (p : PendingFrame) : PendingFrame :=
  { p with message := if p.message = .stands then .waits else p.message }

/-- The retries are exhausted (R107, R102). In LISTENING the SLC goes on with the outbox, and where that is empty the pending PROBE
waits for the poll timer (R100). -/
def State.exhausted (k : Slot) (s : State) : State :=
  match (s.sessOf k).state with
  | .standby | .rampWait | .ramping | .on => s.loseLink k
  | .listening =>
    s.modLine k (fun l => Line.next true s.settings.pollPeriod { l with pendingFrame := l.pendingFrame.map PendingFrame.exhaust })
  | .rejected | .faulted =>
    s.modLine k (fun l => { (l.remove .session) with pendingFrame := none, retries := 0, phase := .idle })
  | .vacant | .barred => s.modLine k (fun l => { l with phase := .idle })

/-- A failed attempt of kind `kind` (R101, R107, R109): its counter rises; while LOST the poll timer restarts; otherwise the
frame is retried at once or its retries are exhausted. A frame given up at a session end has no retry (R113; log entry 22). -/
def State.failAttempt (k : Slot) (kind : FailKind) (s : State) : State :=
  let s := s.modLine k (fun l => { l with counters := l.counters.bump kind })
  match (s.lineOf k).pendingFrame with
  | none => s.modLine k (Line.next (s.sessOf k).state.polls s.settings.pollPeriod)
  | some _ =>
    if (s.lineOf k).lost then
      s.modLine k (fun l => { l with phase := .idle, poll := some s.settings.pollPeriod })
    else if (s.lineOf k).retries < s.settings.lineRetries then
      s.modLine k (Line.retry (s.sessOf k).state.polls s.settings.pollPeriod)
    else s.exhausted k

/-- LINE_GAP_TIMEOUT at slot `k` (R96): the frame that was due is not sent, and the attempt fails as NO_RESPONSE. -/
def State.gapTimeout (k : Slot) (s : State) : State :=
  match (s.lineOf k).phase with
  | .due _ byPoll =>
    match s.chooseFrame k byPoll with
    | none => s.modLine k (Line.rest (s.sessOf k).state.polls s.settings.pollPeriod)
    | some (p, fresh) =>
      (s.modLine k (fun l => { l with pendingFrame := some p, retries := if fresh then 0 else l.retries, poll := none })).failAttempt
        k .noResponse
  | .idle | .awaiting _ _ | .receiving _ _ => s

/-- RESPONSE_TIMEOUT at slot `k` (R95). -/
def State.responseTimeout (k : Slot) (s : State) : State :=
  match (s.lineOf k).phase with
  | .awaiting _ _ | .receiving _ _ => s.failAttempt k .noResponse
  | .idle | .due _ _ => s

/-! ### A valid response -/

/-- Link recovery (R103 step 1, R111): a LOST link becomes UP, LINK_BACK is posted, and a slot that holds an entry makes a
pass due. -/
def State.recoverLink (k : Slot) (s : State) : State :=
  if (s.lineOf k).lost then
    (((s.modLine k (fun l => { l with lost := false, grace := none })).post .linkBack (some k) .none
      (s.sessOf k).tag.toNat).wantPass (s.entryOf k).isSome).finish
  else s

/-- The message of the pending frame still stands in its channel. -/
def Line.standing (l : Line) : Bool :=
  match l.pendingFrame with
  | some p => p.message == .stands
  | none => false

/-- The message of the answered frame leaves its channel where it still stands there; the pending frame is answered (R103). -/
def Line.delivered (l : Line) : Line :=
  match l.pendingFrame with
  | some p =>
    { (match p.message, p.frame.chan with
       | .stands, some c => l.setChan c none
       | _, _ => l) with pendingFrame := none, retries := 0 }
  | none => { l with retries := 0 }

/-- The delivery report (R103 step 2): a GRANT that still stood completes its RAISE (R15). -/
def State.reportDelivery (k : Slot) (f : Frame) (s : State) : State :=
  let stood := (s.lineOf k).standing
  let t := s.modLine k Line.delivered
  match stood, f.msg with
  | true, .grant _ short => t.completeRaise k f.tag short
  | _, _ => t

/-- A valid response to frame `f` with message `m` (R103): link recovery, delivery report, then the upstream message handed
to the Session Manager; the SLC then goes on (R100, R102). -/
def State.acceptResponse (k : Slot) (f : Frame) (m : UpMsg) (s : State) : State :=
  let t := ((s.recoverLink k).reportDelivery k f).finish
  let t := t.modLine k (Line.next (t.sessOf k).state.polls t.settings.pollPeriod)
  { t with raised := t.raised ++ [m.happening k f.tag] }

/-- RESPONSE_COMPLETE at slot `k` (R101). -/
def State.responseComplete (k : Slot) (bytes : List Byte) (lowStop : Bool) (s : State) : State :=
  match (s.lineOf k).phase with
  | .awaiting f _ | .receiving f _ =>
    match judge f bytes lowStop with
    | .incomplete => s
    | .failed kind => s.failAttempt k kind
    | .valid m => s.acceptResponse k f m
  | .idle | .due _ _ => s

/-- RESPONSE_BEGIN at slot `k` (R95): the begin limit gives way to the completion limit, both from the end of the frame. -/
def State.responseBegin (k : Slot) (s : State) : State :=
  match (s.lineOf k).phase with
  | .awaiting f t => s.modLine k (fun l => { l with phase := .receiving f t })
  | .idle | .due _ _ | .receiving _ _ => s

/-- POLL_TIMER at slot `k` (R102, R109): a POLL or PROBE is due, or a LOST-link attempt. -/
def State.pollElapsed (k : Slot) (s : State) : State :=
  match (s.lineOf k).poll with
  | none => s
  | some _ =>
    s.modLine k (fun l => { l with poll := none, phase := match l.phase with
      | .idle => if (s.sessOf k).state.polls then .due 0 true else .idle
      | .due e _ => .due e true
      | p => p })

/-! ### Link grace -/

/-- LINK_GRACE_EXPIRY at slot `k` (R89, R110), in the state it finds. -/
def State.graceExpired (k : Slot) (s : State) : State :=
  if (s.lineOf k).lost then
    match (s.sessOf k).state with
    | .on | .ramping =>
      (((s.dropLease k).post .cut (some k) .linkTimeout (s.grantedTier k)).endSession k .linkTimeout (s.unopened k)).finish
    | .rampWait => ((s.dropLease k).endSession k .linkTimeout (s.unopened k)).finish
    | .standby => (s.endSession k .linkTimeout (s.unopened k)).finish
    | .vacant | .barred | .listening | .rejected | .faulted =>
      s.modLine k (fun l => { l with lost := false, grace := none })
  else s

/-! ### The commands -/

/-- POLL_TIMER. -/
def execPollTimer (k : Slot) (s : State) : Host.Outcome State Fault Refusal := .next (s.whenLoaded (State.pollElapsed k))

/-- FRAME_SEND. -/
def execFrameSend (k : Slot) (s : State) : Host.Outcome State Fault Refusal := .next (s.whenLoaded (State.sendFrame k))

/-- LINE_GAP_TIMEOUT. -/
def execLineGapTimeout (k : Slot) (s : State) : Host.Outcome State Fault Refusal := .next (s.whenLoaded (State.gapTimeout k))

/-- RESPONSE_TIMEOUT. -/
def execResponseTimeout (k : Slot) (s : State) : Host.Outcome State Fault Refusal :=
  .next (s.whenLoaded (State.responseTimeout k))

/-- RESPONSE_COMPLETE. -/
def execResponseComplete (k : Slot) (bytes : List Byte) (lowStop : Bool) (s : State) : Host.Outcome State Fault Refusal :=
  .next (s.whenLoaded (State.responseComplete k bytes lowStop))

/-- RESPONSE_BEGIN. -/
def execResponseBegin (k : Slot) (s : State) : Host.Outcome State Fault Refusal := .next (s.whenLoaded (State.responseBegin k))

/-- LINK_GRACE_EXPIRY. -/
def execLinkGraceExpiry (k : Slot) (s : State) : Host.Outcome State Fault Refusal := .next (s.whenLoaded (State.graceExpired k))

end Sys2Proof.Machine
end

