-- ==== Sys2Proof/Machine/Store.lean ====
section
/-! DEFINITION. The Policy Store: device reset, the classes of the copies and the load, and the phases of a store (chapter 8). -/

namespace Sys2Proof.Machine

/-! ### The image and its class -/

/-- The Global Settings have every field in the range R142 gives. -/
def Settings.inRange (x : Settings) : Bool :=
  decide (x.supplyLimit ≤ 32767) && decide (x.reserve ≤ x.supplyLimit) &&
    decide (1 ≤ x.settleTime) && decide (x.settleTime ≤ 255) && decide (5 ≤ x.pollPeriod) && decide (x.pollPeriod ≤ 255) &&
    decide (x.lineRetries ≤ 3) && decide (5 ≤ x.linkGrace) && decide (x.linkGrace ≤ 255) &&
    decide (5 ≤ x.rampTimeout) && decide (x.rampTimeout ≤ 255) && decide (x.rampRetries ≤ 3) &&
    [2, 4, 8, 16].contains x.scanPeriod && decide (1 ≤ x.overdrawCount) && decide (x.overdrawCount ≤ 15) &&
    decide (x.overdrawMargin ≤ 1023) && decide (x.passLimit ≤ 15) && decide (x.sagLevel ≤ 1000) &&
    decide (10 ≤ x.sagHoldoff) && decide (x.sagHoldoff ≤ 255)

/-- The sum of the floors of the enabled slots of an image (R143). -/
def Image.floorSum (i : Image) : Nat := sumSlots (fun k => (i.records.get k).floorTerm)

/-- An image meets what VALID asks of its fields (R143): every one in range, and the floor law within its own available. -/
def Image.ok (i : Image) : Bool :=
  allSlots.all (fun k => (i.records.get k).inRange) && i.settings.inRange &&
    decide (i.floorSum ≤ i.settings.supplyLimit - i.settings.reserve)

/-- The class of a copy (R143). A copy whose check value field is still erased reads 0xFFFF there (R142, R149). -/
def Copy.classify : Copy → CopyClass
  | .blank => .blank
  | .partly => .bad
  | .unchecked i => if i.ok = true ∧ i.check = 0xFFFF then .valid else .bad
  | .whole i => if i.ok then .valid else .bad

/-- The image of a copy that classifies as VALID. -/
def Copy.image? (c : Copy) : Option Image :=
  match c.classify, c with
  | .valid, .whole i => some i
  | .valid, .unchecked i => some i
  | _, _ => none

/-- Generation `x` is newer than `y` (R144). -/
def newer (x y : Word) : Bool := decide (1 ≤ (x - y).toNat) && decide ((x - y).toNat ≤ 32767)

/-- The source of the live policy, with its image when it is a copy (R144). -/
def chooseSource (a b : Option Image) : Source × Option Image :=
  match a, b with
  | some x, some y => if newer y.generation x.generation then (.b, some y) else (.a, some x)
  | some x, none => (.a, some x)
  | none, some y => (.b, some y)
  | none, none => (.defaults, none)

/-! ### The load -/

/-- The active copy after a load (R145). -/
def Source.active : Source → CopyId
  | .a => .a
  | .b => .b
  | .defaults => .b
  | .none => .b

/-- The image the live policy takes at a load: the chosen copy's, or the factory defaults with generation 0 (R145, R146). -/
def loadedImage (i : Option Image) : Image :=
  i.getD { generation := 0, records := PerSlot.all PolicyRecord.factory, settings := Settings.factory }

/-- The load completes (R145): live policy, active copy, START_REPORT, START_DONE, committed (R21), the presence timers of
slots whose PRESENT is active (R73), the first scan (R128), and START. -/
def State.load (s : State) : State :=
  let choice := chooseSource s.store.copyA.image? s.store.copyB.image?
  let img := loadedImage choice.2
  let t := { s with
    cmd := { s.cmd with policy := img.records, settings := img.settings }
    store := { s.store with
      active := choice.1.active
      activeGen := img.generation
      report := { classA := s.store.copyA.classify, classB := s.store.copyB.classify, source := choice.1,
                  generation := byteOf img.generation.toNat }
      startDone := true }
    alloc := { s.alloc with committed := img.floorSum }
    mon := { s.mon with scanTimer := img.settings.scanPeriod }
    sess := PerSlot.tabulate (fun k =>
      { s.sess.get k with presence := if s.present.get k then .toInsertion 0 else .idle }) }
  t.post .start none .none img.generation.toNat

/-! ### Device reset -/

/-- The target copy as a device reset leaves it (R151). `reached`: in ERASING the erase had completed; in PROGRAMMING a
field had been programmed; in VERIFYING the check value was in place. -/
def PolicyStore.cutShort (p : PolicyStore) (reached : Bool) : PolicyStore :=
  match p.state with
  | .idle => p
  | .erasing => p.setTarget (if reached then .blank else .partly)
  | .programming => p.setTarget (if reached then .partly else .blank)
  | .verifying =>
    match p.snapshot, reached with
    | some i, true => p.setTarget (.whole i)
    | some i, false => p.setTarget (.unchecked i)
    | none, _ => p

/-- DEVICE_RESET (R144): every block takes its reset state; the copies stay, but for the target of a store cut short; the
PRESENT pins are what they are, and the commands waiting outside wait on. -/
def State.deviceReset (reached : Bool) (s : State) : State :=
  let p := s.store.cutShort reached
  { State.reset with
    store := { PolicyStore.reset with copyA := p.copyA, copyB := p.copyB }
    present := s.present
    pending := s.pending }

/-! ### The phases of a store -/

/-- ERASE_COMPLETE (R149). -/
def State.eraseDone (s : State) : State :=
  if s.store.state = .erasing then s.modStore (fun p => { p.setTarget .blank with state := .programming }) else s

/-- PROGRAM_COMPLETE (R149): every field of the snapshot is in the target, the check value field still erased. -/
def State.programDone (s : State) : State :=
  match s.store.state, s.store.snapshot with
  | .programming, some i => s.modStore (fun p => { p.setTarget (.unchecked i) with state := .verifying })
  | _, _ => s

/-- The store ends and its result is reported, unless a host port reset has discarded it (R150, R152). -/
def State.endStore (r : CmdResult) (s : State) : State :=
  let t := s.modStore (fun p => { p with state := .idle, snapshot := none, discard := false })
  if s.store.discard then t else t.complete r

/-- A store ends with success (R150). -/
def State.storeGood (i : Image) (s : State) : State :=
  let t := (s.modStore (fun p => { p.setTarget (.whole i) with active := p.target, activeGen := i.generation })).endStore .ok
  if s.store.discard then t else t.post .storeDone none .none i.generation.toNat

/-- A store ends with failure and its target copy reads `x` (R150). -/
def State.storeBad (x : Copy) (s : State) : State := (s.modStore (PolicyStore.setTarget x)).endStore .storeFail

/-- VERIFY_COMPLETE (R150). -/
def State.verifyDone (o : VerifyOutcome) (s : State) : State :=
  match s.store.state, s.store.snapshot with
  | .verifying, some i =>
    match o with
    | .success => s.storeGood i
    | .fieldDiffers untouched => s.storeBad (if untouched then .blank else .partly)
    | .checkDiffers => s.storeBad .partly
  | _, _ => s

/-! ### The commands -/

/-- DEVICE_RESET. -/
def execDeviceReset (reached : Bool) (s : State) : Host.Outcome State Fault Refusal := .next (s.deviceReset reached)

/-- POLICY_LOAD (R145): a load is under way only until it is complete. -/
def execPolicyLoad (s : State) : Host.Outcome State Fault Refusal := .next (if s.store.startDone then s else s.load)

/-- ERASE_COMPLETE. -/
def execEraseComplete (s : State) : Host.Outcome State Fault Refusal := .next (s.whenLoaded State.eraseDone)

/-- PROGRAM_COMPLETE. -/
def execProgramComplete (s : State) : Host.Outcome State Fault Refusal := .next (s.whenLoaded State.programDone)

/-- VERIFY_COMPLETE. -/
def execVerifyComplete (o : VerifyOutcome) (s : State) : Host.Outcome State Fault Refusal :=
  .next (s.whenLoaded (State.verifyDone o))

end Sys2Proof.Machine
end

