-- ==== Sys2Proof/Machine/Dispatch.lean ====
section
/-! DEFINITION. One arm per command: each calls the command's meaning. -/

namespace Sys2Proof.Machine

def exec (i : Instr) (s : State) : Host.Outcome State Fault Refusal :=
  match i with
  | .deviceReset reached => Sys2Proof.Machine.execDeviceReset reached s
  | .policyLoad => Sys2Proof.Machine.execPolicyLoad s
  | .insertion slot => Sys2Proof.Machine.execInsertion slot s
  | .removal slot => Sys2Proof.Machine.execRemoval slot s
  | .scan samples bulk => Sys2Proof.Machine.execScan samples bulk s
  | .outputGood slot => Sys2Proof.Machine.execOutputGood slot s
  | .rampDone slot tag => Sys2Proof.Machine.execRampDone slot tag s
  | .rampStart => Sys2Proof.Machine.execRampStart s
  | .rampTimeout slot => Sys2Proof.Machine.execRampTimeout slot s
  | .backoffEnd slot => Sys2Proof.Machine.execBackoffEnd slot s
  | .overdrawStrike slot tag number => Sys2Proof.Machine.execOverdrawStrike slot tag number s
  | .strikeClear slot => Sys2Proof.Machine.execStrikeClear slot s
  | .sagBegin bulk => Sys2Proof.Machine.execSagBegin bulk s
  | .sagEnd => Sys2Proof.Machine.execSagEnd s
  | .recallDeadline slot => Sys2Proof.Machine.execRecallDeadline slot s
  | .pollTimer slot => Sys2Proof.Machine.execPollTimer slot s
  | .frameSend slot => Sys2Proof.Machine.execFrameSend slot s
  | .lineGapTimeout slot => Sys2Proof.Machine.execLineGapTimeout slot s
  | .responseTimeout slot => Sys2Proof.Machine.execResponseTimeout slot s
  | .responseComplete slot bytes lowStop => Sys2Proof.Machine.execResponseComplete slot bytes lowStop s
  | .linkGraceExpiry slot => Sys2Proof.Machine.execLinkGraceExpiry slot s
  | .hello slot tag kind serial flags preferred draws => Sys2Proof.Machine.execHello slot tag kind serial flags preferred draws s
  | .claim slot tag wanted least => Sys2Proof.Machine.execClaim slot tag wanted least s
  | .yieldTier slot tag tier => Sys2Proof.Machine.execYield slot tag tier s
  | .ready slot tag tier => Sys2Proof.Machine.execReady slot tag tier s
  | .moduleFault slot tag code => Sys2Proof.Machine.execFault slot tag code s
  | .noneMessage slot tag => Sys2Proof.Machine.execNoneMessage slot tag s
  | .applyPolicy slot => Sys2Proof.Machine.execApplyPolicy slot s
  | .setBudget limit reserve => Sys2Proof.Machine.execSetBudget limit reserve s
  | .admitSlot slot => Sys2Proof.Machine.execAdmit slot s
  | .evict slot hard => Sys2Proof.Machine.execEvict slot hard s
  | .setTier slot tier => Sys2Proof.Machine.execSetTier slot tier s
  | .clearFault slot => Sys2Proof.Machine.execClearFault slot s
  | .rescan slot => Sys2Proof.Machine.execRescan slot s
  | .storePolicy => Sys2Proof.Machine.execStorePolicy s
  | .eraseComplete => Sys2Proof.Machine.execEraseComplete s
  | .programComplete => Sys2Proof.Machine.execProgramComplete s
  | .verifyComplete outcome => Sys2Proof.Machine.execVerifyComplete outcome s
  | .setBackfill value => Sys2Proof.Machine.execSetBackfill value s
  | .setPreempt value => Sys2Proof.Machine.execSetPreempt value s
  | .setIntEnables noticeEn cmdEn => Sys2Proof.Machine.execSetIntEnables noticeEn cmdEn s
  | .portReset => Sys2Proof.Machine.execPortReset s
  | .settingWrite reg value => Sys2Proof.Machine.execSettingWrite reg value s
  | .passLimitWrite value => Sys2Proof.Machine.execPassLimitWrite value s
  | .statusW1C value => Sys2Proof.Machine.execStatusW1C value s
  | .tableSelWrite value => Sys2Proof.Machine.execTableSelWrite value s
  | .tableDataRead => Sys2Proof.Machine.execTableDataRead s
  | .tableDataWrite value => Sys2Proof.Machine.execTableDataWrite value s
  | .noticeDataRead => Sys2Proof.Machine.execNoticeDataRead s
  | .budgetRegisterRead addr => Sys2Proof.Machine.execBudgetRegisterRead addr s
  | .registerWrite addr value => Sys2Proof.Machine.execRegisterWrite addr value s
  | .transactionEnd => Sys2Proof.Machine.execTransactionEnd s
  | .presentChange slot active => Sys2Proof.Machine.execPresentChange slot active s
  | .responseBegin slot => Sys2Proof.Machine.execResponseBegin slot s

end Sys2Proof.Machine
end

