-- ==== Sys2Proof/Machine/Step.lean ====
section
/-! DEFINITION. The step: the command at the front of the queue; with none waiting, what has been raised inside, a timer that has run out, or one millisecond. -/

namespace Sys2Proof.Machine

/-- What the part does with no command waiting (DESIGN CHOICE, log entry 1). The load and the phases of a store complete only by a
command: here time passes in a phase without bound (DESIGN CHOICE, log entries 5 and 49). -/
def idle (s : State) : Host.Outcome State Fault Refusal :=
  if s.store.startDone then
    match s.raised with
    | c :: _ => exec c s
    | [] =>
      match s.dueEvent with
      | some c => exec c s
      | none => .next s.tick
  else .next s

/-- One step. -/
def step (s : State) : Host.Outcome State Fault Refusal :=
  match s.pending with
  | c :: rest => exec c { s with pending := rest }
  | [] => idle s

/-- `s` with the command that a table word spells in front of its queue; the table gives no row any bits, so no word
spells one and `s` is unchanged. -/
def State.withFetchWord (s : State) (nbits w : Nat) : State :=
  match decodeTableWord nbits w with
  | some c => { s with pending := c :: s.pending }
  | none => s

end Sys2Proof.Machine
end

