-- ==== Sys2Proof/Safety.lean ====
section
/-! DEFINITION. What a safe run of the UB8 keeps: the laws that the manual states of every state between two happenings. -/

namespace Sys2Proof.Machine

/-- Until the load is complete the Allocator, the Power Path Unit and the sessions hold their reset state (R144). -/
def State.LoadLaw (s : State) : Prop :=
  s.store.startDone = false →
    s.alloc = Allocator.reset ∧ s.power = PowerPath.reset ∧ s.sess = PerSlot.all Session.reset

/-- Committed is the sum of the eight commitments (R4). -/
def State.CommittedLaw (s : State) : Prop := s.alloc.committed = sumSlots s.commitment

/-- Earmark is 0 without a reclaim and never exceeds the shortfall, which is at least 1, of the one reclaim (R65, R56). -/
def State.EarmarkLaw (s : State) : Prop :=
  match s.alloc.reclaim with
  | none => s.alloc.earmark = 0
  | some r => s.alloc.earmark ≤ r.shortfall ∧ 1 ≤ r.shortfall

/-- The reclaim's beneficiary holds the entry that the record names, and each of its victims a LOWER in flight (R56, R65). -/
def State.ReclaimLaw (s : State) : Prop :=
  ∀ r, s.alloc.reclaim = some r →
    (∃ e, s.entryOf r.slot = some e ∧ e.tag = r.tag) ∧
    ∀ k ∈ r.victims, ∃ l t d o n, s.leaseOf k = some l ∧ l.trans = some (.lower t d o n)

/-- No pass count exceeds PASS_LIMIT (R43). -/
def State.PassLaw (s : State) : Prop := ∀ e ∈ s.alloc.queue, e.passCount ≤ s.settings.passLimit

/-- A slot has at most one Demand Queue entry (R23). -/
def State.EntryLaw (s : State) : Prop := (s.alloc.queue.map Entry.slot).Nodup

/-- No entry stands ahead of one with a higher key (R24). -/
def State.OrderLaw (s : State) : Prop := s.alloc.queue.Pairwise (fun a b => a.keyGe b = true)

/-- The live policy is one that a copy classed VALID could hold: every field in its range, and the floor sum within
available (R2, R142, R143). -/
def State.PolicyLaw (s : State) : Prop :=
  (Image.mk s.store.activeGen s.cmd.policy s.cmd.settings).ok = true

/-- The Notice Queue holds at most 32 records and its LOST count at most 255 (R172). -/
def State.NoticeLaw (s : State) : Prop := s.notices.records.length ≤ 32 ∧ s.notices.lostCount ≤ 255

/-- Nothing is left undone between two happenings: no pass is due, shedding has not outlived its excess (R71), and the ramp
resource is never free while a slot waits and the hold is clear (R118). -/
def State.Settled (s : State) : Prop :=
  s.alloc.passDue = false ∧ (s.alloc.state = .shedding → s.available < s.alloc.committed) ∧
    (s.power.holder = none → s.power.hold = false → s.power.queue = [])

/-- The ramp states a session state goes with (R117). -/
def SessState.rampOk (st : SessState) (r : RampState) : Bool :=
  match st with
  | .rampWait => decide (r = .queued) || decide (r = .backoff)
  | .ramping => decide (r = .ramping)
  | .vacant | .barred | .listening | .rejected | .standby | .on | .faulted => decide (r = .none)

/-- Slot `k`'s blocks agree with its session state: its lease (R9), gate (R116), aux rail (R74), ramp record, place in the
Ramp Queue and hold of the ramp resource (R117, R118); and it has a Demand Queue entry only in ON, or in STANDBY with its
admit flag set (R23, R36). -/
def State.SlotLaw (s : State) (k : Slot) : Prop :=
  (s.leaseOf k).isSome = (s.sessOf k).state.leased ∧
  (s.rampOf k).gate = (s.sessOf k).state.gateOn ∧
  (s.rampOf k).aux = (s.sessOf k).state.auxOn ∧
  (s.sessOf k).state.rampOk (s.rampOf k).state = true ∧
  (k ∈ s.power.queue ↔ (s.rampOf k).state = .queued) ∧
  (s.power.holder = some k ↔ (s.rampOf k).state = .ramping) ∧
  ((s.entryOf k).isSome → (s.sessOf k).state = .on ∨ ((s.sessOf k).state = .standby ∧ (s.sessOf k).admitFlag = true))

/-- Every slot's blocks agree; no slot stands twice in the Ramp Queue, and no DEFERRABLE slot stands in it ahead of an ESSENTIAL
one (R117). -/
def State.Coherent (s : State) : Prop :=
  (∀ k, s.SlotLaw k) ∧ s.power.queue.Nodup ∧
    s.power.queue.Pairwise (fun i j => (s.rampOf i).cls = .deferrable → (s.rampOf j).cls = .deferrable)

/-- A transition on a lease in ON of tier `tier`: a RAISE to a higher tier of the list, or a LOWER to a lower one, each with
that tier's draw (R13, R14, R17). -/
def State.TransitionLaw (s : State) (k : Slot) (tier : Nat) : Transition → Prop
  | .raise t d _ => (s.sessOf k).state = .on ∧ tier < t ∧ t ≤ s.tiersOf k ∧ d = s.drawOf k t
  | .lower t d _ _ => (s.sessOf k).state = .on ∧ t < tier ∧ d = s.drawOf k t

/-- Every open session has a tier list that passed check 1 of its HELLO (R78, R80); every lease holds a tier of that list
with its draw and a lawful transition (R9, R13); every entry's tiers lie in the list, least first (R22). -/
def State.TierLaw (s : State) : Prop :=
  ∀ k,
    ((s.sessOf k).state.isOpen = true → ∃ d, (s.sessOf k).desc = some d ∧ d.listOk = true) ∧
    (∀ l, s.leaseOf k = some l → 1 ≤ l.tier ∧ l.tier ≤ s.tiersOf k ∧ l.draw = s.drawOf k l.tier ∧
      ∀ x, l.trans = some x → s.TransitionLaw k l.tier x) ∧
    (∀ e, s.entryOf k = some e → 1 ≤ e.least ∧ e.least ≤ e.wanted ∧ e.wanted ≤ s.tiersOf k)

/-- Committed plus earmark stays within available, except while the Allocator is in SHEDDING (R8), where no reclaim is
active (R70). -/
def State.BudgetLaw (s : State) : Prop :=
  if s.alloc.state = .shedding then s.alloc.reclaim = none else s.alloc.committed + s.alloc.earmark ≤ s.available

/-- The laws of every state between two happenings, together. -/
structure State.Lawful (s : State) : Prop where
  load : s.LoadLaw
  committed : s.CommittedLaw
  earmark : s.EarmarkLaw
  reclaim : s.ReclaimLaw
  policy : s.PolicyLaw
  entry : s.EntryLaw
  settled : s.Settled
  coherent : s.Coherent
  tier : s.TierLaw
  budget : s.BudgetLaw

/-! ### What the host reads -/

/-- `w` carries each value `v` of a triple `(lo, n, v)` in the `n` bits from bit `lo` on, and 0 in every other bit (R177). -/
def Carries (w : Word) (fields : List (Nat × Nat × Nat)) : Prop :=
  w.toNat = (fields.map (fun f => f.2.2 % 2 ^ f.2.1 * 2 ^ f.1)).sum

/-- A record has the words that `layout` lists, each with its fields. -/
def RecordReads (ws : List Word) (layout : List (List (Nat × Nat × Nat))) : Prop := List.Forall₂ Carries ws layout

/-- The codes of reasons, notice kinds, results and downstream messages (R171, R170, R160, section 11.4). -/
def CodesRead : Prop :=
  [Reason.none, .claim, .bringup, .restore, .host, .policy, .preempt, .shed, .overdraw, .recallTimeout, .linkTimeout, .removed,
    .sag, .moduleFault, .moduleRestart, .rampFail, .badList, .overCap, .notHigher, .notAdmitted, .inTransition, .neverFits,
    .cancelled, .barred, .yielded].map Reason.code = List.range 25 ∧
  [NoticeKind.start, .sessionOpen, .sessionRefused, .sessionClosed, .queued, .granted, .denied, .recallIssued, .recallDone,
    .recallSilent, .cut, .faulted, .overdrawStrike, .linkLost, .linkBack, .rampRetry, .sagBegin, .sagEnd, .shedBegin, .shedEnd,
    .reclaimBegin, .reclaimEnd, .storeDone].map NoticeKind.code = (List.range 23).map Nat.succ ∧
  [CmdResult.ok, .badSlot, .badArg, .state, .floorConflict, .budgetConflict, .storeFail].map CmdResult.code = List.range 7 ∧
  ∀ (t : Byte) (r : Reason) (n m : Nat) (b : Bool),
    [DownMsg.poll, .probe, .welcome t, .refuse r, .sever r, .recall n m, .grant n b, .hold n, .deny r].map DownMsg.kindCode =
      (List.range 9).map Nat.succ

/-- The three words of a slot policy record (section 11.3). -/
def PolicyRecord.Reads (r : PolicyRecord) (ws : List Word) : Prop :=
  RecordReads ws
    [[(0, 1, r.enabled.toNat), (1, 1, (decide (r.cls = .essential)).toNat), (2, 1, (decide (r.startMode = .auto)).toNat),
      (4, 4, r.rank)], [(0, 16, r.floor)], [(0, 16, r.cap)]]

/-- The seven words of slot `k`'s SESSION record (section 11.3). -/
def State.SessionReads (s : State) (k : Slot) (ws : List Word) : Prop :=
  let x := s.sessOf k
  let l := s.lineOf k
  let code := fun (m : Option DownMsg) => m.elim 0 DownMsg.kindCode
  RecordReads ws
    [[(0, 4, [SessState.vacant, .barred, .listening, .rejected, .standby, .rampWait, .ramping, .on, .faulted].idxOf x.state),
      (4, 1, x.admitFlag.toNat), (5, 1, l.lost.toNat), (6, 1, l.seq.toNat), (8, 8, x.tag.toNat)],
     [(0, 8, (if x.state = .rejected then x.refusal else x.lastEnd).code), (8, 8, x.protoErrors)],
     [(0, 4, code l.outSession), (4, 4, code l.outRecall), (8, 4, code l.outClaim)],
     [(0, 8, (l.grace.getD 0 + 9) / 10)],
     [(0, 8, l.counters.noResponse), (8, 8, l.counters.badFormat)],
     [(0, 8, l.counters.badCrc), (8, 8, l.counters.badKind)],
     [(0, 8, l.counters.badTag), (8, 8, l.counters.badEcho)]]

/-- The five words of slot `k`'s LEASE record; zeros without an entry (section 11.3). -/
def State.LeaseReads (s : State) (k : Slot) (ws : List Word) : Prop :=
  match s.leaseOf k with
  | none => RecordReads ws [[], [], [], [], []]
  | some l =>
    let phase := match (s.sessOf k).state with
      | .rampWait => 1
      | .ramping => 2
      | .on => 3
      | _ => 0
    match l.trans with
    | none =>
      RecordReads ws
        [[(0, 2, phase), (2, 3, l.tier), (5, 1, l.short.toNat)], [(0, 8, l.tag.toNat)], [(0, 12, l.draw)], [], []]
    | some (.raise t d o) =>
      RecordReads ws
        [[(0, 2, phase), (2, 3, l.tier), (5, 1, l.short.toNat), (6, 2, 1)],
         [(0, 8, l.tag.toNat), (8, 3, t), (11, 5, o.reason.code)], [(0, 12, l.draw)], [(0, 12, d)], []]
    | some (.lower t d o left) =>
      RecordReads ws
        [[(0, 2, phase), (2, 3, l.tier), (5, 1, l.short.toNat), (6, 2, 2), (8, 1, (s.isVictim k).toNat)],
         [(0, 8, l.tag.toNat), (8, 3, t), (11, 5, o.reason.code)], [(0, 12, l.draw)], [(0, 12, d)], [(0, 12, left)]]

/-- The three words of the QUEUE record of a position; zeros beyond the last entry (R44, section 11.3). -/
def State.QueueReads (s : State) (position : Nat) (ws : List Word) : Prop :=
  match s.alloc.queue[position]? with
  | none => RecordReads ws [[], [], []]
  | some e =>
    let marked := s.alloc.reclaim.filter (fun r => r.slot == e.slot)
    RecordReads ws
      [[(0, 3, e.slot.val), (4, 3, [EntryOrigin.claim, .bringup, .restore, .host].idxOf e.origin + 1),
        (7, 1, (decide (e.cls = .essential)).toNat), (8, 3, e.rank), (11, 1, marked.isSome.toNat), (12, 4, e.passCount)],
       [(0, 8, e.tag.toNat), (8, 3, e.wanted), (12, 3, e.least)], [(0, 15, marked.elim 0 Reclaim.shortfall)]]

/-- The three words of slot `k`'s RAMPQ record (R127, section 11.3). -/
def State.RampReads (s : State) (k : Slot) (ws : List Word) : Prop :=
  let r := s.rampOf k
  RecordReads ws
    [[(0, 2, [RampState.none, .queued, .backoff, .ramping].idxOf r.state), (2, 1, (decide (r.cls = .essential)).toNat),
      (3, 2, r.retry), (5, 1, r.gate.toNat), (6, 1, r.aux.toNat), (8, 8, r.tag.toNat)],
     [(0, 8, if r.state = .ramping ∨ r.state = .backoff then r.timer else 0),
      (8, 4, if r.state = .queued then s.power.queue.idxOf k else 15)],
     if k = 0 then [(0, 4, s.power.holder.elim 15 Fin.val), (4, 1, s.power.hold.toNat)] else []]

/-- The six words of slot `k`'s MONITOR record (R141, section 11.3). -/
def State.MonitorReads (s : State) (k : Slot) (ws : List Word) : Prop :=
  let m := s.monOf k
  RecordReads ws
    [[(0, 13, m.power)], [(0, 10, m.voltage)], [(0, 13, m.peak)], [(0, 13, m.window.sum / 16)],
     [(0, 4, m.run), (4, 1, m.struck.toNat), (5, 1, m.watchArmed.toNat), (6, 2, m.watchCount), (8, 8, m.clean)],
     if k = 0 then [(0, 2, [SagState.normal, .sagged, .holdoff].idxOf s.mon.sag), (2, 2, s.mon.low),
       (8, 8, (s.mon.holdoff + 9) / 10)] else []]

/-- The ten words of slot `k`'s MODULE record; zeros without a descriptor (R94, section 11.3). -/
def State.ModuleReads (s : State) (k : Slot) (ws : List Word) : Prop :=
  match (s.sessOf k).desc with
  | none => RecordReads ws [[], [], [], [], [], [], [], [], [], []]
  | some d =>
    RecordReads ws
      ([[(0, 3, d.draws.length), (3, 1, 1), (4, 3, min 7 d.preferred.toNat), (8, 8, d.flags.toNat)], [(0, 16, d.kind.toNat)],
        [(0, 16, d.serial.toNat / 65536)], [(0, 16, d.serial.toNat)]] ++
       (List.range 6).map (fun i => [(0, 16, (d.draws[i]?.getD 0).toNat)]))

/-- What a capture holds under a value of TABLE_SEL, the code in bits 15..8 and the index in bits 7..0 (R158, section 11.3). An
index beyond the table captures a record of zeros, and a code of no table zeros only. -/
def State.TableReads (s : State) (sel : Word) : Prop :=
  let code := sel.toNat / 256
  let index := sel.toNat % 256
  let ws := s.recordOf sel
  (code = 1 → s.cmd.staging.Reads ws) ∧
  (code = 4 → index < 8 → s.QueueReads index ws) ∧
  (∀ k : Slot, index = k.val →
    (code = 0 → (s.policyOf k).Reads ws) ∧ (code = 2 → s.SessionReads k ws) ∧ (code = 3 → s.LeaseReads k ws) ∧
    (code = 5 → s.RampReads k ws) ∧ (code = 6 → s.MonitorReads k ws) ∧ (code = 7 → s.ModuleReads k ws)) ∧
  (code < 8 → code ≠ 1 → 8 ≤ index → ws = List.replicate (recordWords (BitVec.ofNat 8 code)) 0) ∧
  (8 ≤ code → ∀ w ∈ ws, w = 0)

/-- What each register whose read has no side effect reads (section 11.2, R155, R157, R174, R175, R178), the budget registers
apart. -/
def State.RegistersRead (s : State) : Prop :=
  let x := s.settings
  let h := s.host
  (∀ p ∈
    [((0x00 : BitVec 7), [(0, 16, 0x0B08)]), (0x01, [(0, 16, 0x0001)]),
     (0x02, [(0, 2, [AllocState.running, .shedding, .sagHold].idxOf s.alloc.state),
       (2, 1, (decide (s.store.state ≠ .idle)).toNat), (3, 1, h.cmdDone.toNat), (4, 1, h.cmdOverrun.toNat),
       (5, 1, h.badWrite.toNat), (6, 1, (decide (s.notices.records ≠ [])).toNat), (7, 1, s.store.startDone.toNat)]),
     (0x03, [(0, 1, x.backfill.toNat), (1, 1, x.preempt.toNat), (2, 1, h.intNoticeEn.toNat), (3, 1, h.intCmdEn.toNat)]),
     (0x0B, [(0, 16, h.cmd.toNat)]), (0x0C, [(0, 16, h.arg0.toNat)]), (0x0D, [(0, 16, h.arg1.toNat)]),
     (0x0E, [(0, 8, s.cmd.result.code)]), (0x0F, [(0, 16, x.settleTime)]), (0x10, [(0, 16, x.pollPeriod)]),
     (0x11, [(0, 2, x.lineRetries), (8, 8, x.linkGrace)]), (0x12, [(0, 8, x.rampTimeout), (8, 2, x.rampRetries)]),
     (0x13, [(0, 2, if x.scanPeriod = 2 then 0 else if x.scanPeriod = 4 then 1 else if x.scanPeriod = 8 then 2 else 3),
       (8, 4, x.overdrawCount)]),
     (0x14, [(0, 16, x.overdrawMargin)]), (0x15, [(0, 16, x.passLimit)]), (0x16, [(0, 16, x.sagLevel)]),
     (0x17, [(0, 16, x.sagHoldoff)]), (0x18, [(0, 16, h.tableSel.toNat)]),
     (0x1B, [(0, 6, s.notices.records.length), (8, 8, s.notices.lostCount)]),
     (0x1C, [(0, 2, [CopyClass.none, .valid, .blank, .bad].idxOf s.store.report.classA),
       (2, 2, [CopyClass.none, .valid, .blank, .bad].idxOf s.store.report.classB),
       (4, 2, [Source.none, .a, .b, .defaults].idxOf s.store.report.source), (8, 8, s.store.report.generation.toNat)]),
     (0x1D, [(0, 16, s.mon.bulk)])], Carries (s.register p.1) p.2) ∧
  (∀ addr : BitVec 7, 0x1E ≤ addr.toNat → s.register addr = 0) ∧
  (s.intAsserted = true ↔
    s.notices.records ≠ [] ∧ h.intNoticeEn = true ∨ h.cmdDone = true ∧ h.intCmdEn = true)

/-! ### What a response must hold -/

/-- `kind` is the failure kind of the first check of R101, from the second on, that the response `bytes` to frame `f` fails; the
first check, timing, is the timeouts'. No kind is, while fewer bytes have come than the length field asks for. -/
def Frame.ResponseFails (f : Frame) (bytes : List Byte) (lowStop : Bool) (kind : FailKind) : Prop :=
  let byte := fun (i : Nat) => (bytes[i]?.getD 0).toNat
  let length := byte 2 % 32
  if lowStop = true then kind = .badFormat
  else if bytes.length < 3 then False
  else if 21 < length then kind = .badFormat
  else if bytes.length < 4 + length then False
  else if (crc8 (bytes.take (3 + length))).toNat ≠ byte (3 + length) then kind = .badCrc
  else if byte 0 < 0x40 ∨ 0x45 < byte 0 then kind = .badKind
  else if (byte 0 = 0x40 ∧ length ≠ 0) ∨ (byte 0 = 0x41 ∧ length ≠ 9 + 2 * byte 11) ∨ (byte 0 = 0x42 ∧ length ≠ 2) ∨
      (0x43 ≤ byte 0 ∧ length ≠ 1) then kind = .badFormat
  else if byte 1 ≠ f.tag.toNat ∧ ¬ (byte 0 = 0x41 ∧ byte 1 = 0) then kind = .badTag
  else if (if f.seq = true then byte 2 < 128 else 128 ≤ byte 2) then kind = .badEcho
  else False

/-! ### What a command leaves as it was -/

/-- Slot `k` stands in `t` as in `s`: its session, lease, line, ramp record, monitor record and Demand Queue entry. -/
def State.SameSlot (s t : State) (k : Slot) : Prop :=
  t.sessOf k = s.sessOf k ∧ t.leaseOf k = s.leaseOf k ∧ t.lineOf k = s.lineOf k ∧ t.rampOf k = s.rampOf k ∧
    t.monOf k = s.monOf k ∧ t.entryOf k = s.entryOf k

/-- Every slot but `k` stands as it stood. -/
def State.OthersSame (s t : State) (k : Slot) : Prop := ∀ j, j ≠ k → s.SameSlot t j

/-- Every slot stands as it stood. -/
def State.SlotsSame (s t : State) : Prop := ∀ j, s.SameSlot t j

/-- What no slot's command reaches: the Host Port, the Command Unit with the live policy, the Policy Store, the PRESENT pins
and the commands that wait. -/
def State.HostSame (s t : State) : Prop :=
  t.host = s.host ∧ t.cmd = s.cmd ∧ t.store = s.store ∧ t.present = s.present ∧ t.pending = s.pending

/-- A happening that leads from `s` to `t` makes a pass due when `cause` holds, and otherwise leaves the mark as it was (R37). -/
def State.PassDueBy (s t : State) (cause : Prop) : Prop :=
  (cause → t.alloc.passDue = true) ∧ (¬ cause → t.alloc.passDue = s.alloc.passDue)

/-- The lease of slot `k` has a LOWER in flight (R17). -/
def State.Lowers (s : State) (k : Slot) : Prop :=
  ∃ l t d o n, s.leaseOf k = some l ∧ l.trans = some (.lower t d o n)

/-- The drop of slot `k`'s lease is a cause of R37: it ends a LOWER (R18), or committed falls by it (R12). That a drop without a
LOWER which lowers committed by 0 is none is the model's choice (log entry 44). -/
def State.DropCalls (s : State) (k : Slot) : Prop := s.Lowers k ∨ s.floorOf k < s.commitment k

/-- Reclaim and earmark stand in `t` as in `s`. -/
def State.ReclaimSame (s t : State) : Prop := t.alloc.reclaim = s.alloc.reclaim ∧ t.alloc.earmark = s.alloc.earmark

/-- The end of slot `k`'s LOWER, by which its commitment falls by `f` (R6, R60): with the victim mark the fall goes to the earmark
up to the shortfall and the slot leaves the victim set; without it reclaim and earmark stand. -/
def State.Credits (s t : State) (k : Slot) (f : Nat) : Prop :=
  (∀ r, s.alloc.reclaim = some r → k ∈ r.victims →
    t.alloc.earmark = s.alloc.earmark + min f (r.shortfall - s.alloc.earmark) ∧
    t.alloc.reclaim = some { r with victims := r.victims.filter (fun j => decide (j ≠ k)) }) ∧
  ((∀ r, s.alloc.reclaim = some r → k ∉ r.victims) → s.ReclaimSame t)

/-- What the drop of slot `k`'s lease does to the reclaim. A LOWER in flight credits its fall, the whole commitment above the floor
(R12, R18, R60); any other drop leaves reclaim and earmark (R60). Where the slot's own entry is the beneficiary's and leaves in
the same happening, the reclaim is abandoned (R63). -/
def State.DropCredits (s t : State) (k : Slot) : Prop :=
  (t.entryOf k = s.entryOf k ∨ s.isBeneficiary k = false →
    (s.Lowers k → s.Credits t k (s.commitment k - s.floorOf k)) ∧ (¬ s.Lowers k → s.ReclaimSame t)) ∧
  ((s.entryOf k).isSome = true → s.isBeneficiary k = true → t.entryOf k = none → t.alloc.reclaim = none ∧ t.alloc.earmark = 0)

/-- A claim channel after DENY or HOLD `m` is queued: a GRANT standing there stays (R99). -/
def claimAfter (old : Option DownMsg) (m : DownMsg) : Option DownMsg :=
  match old with
  | some (.grant t short) => some (.grant t short)
  | _ => some m

/-- The entry of slot `k`, if there is one, is denied in `t` with reason `r` (R35, R63): DENY goes to the module and DENIED is
posted, a pass is due, and a beneficiary's reclaim is abandoned, with RECLAIM_END after DENIED (log entry 17). -/
def State.EntryDenied (s t : State) (k : Slot) (r : Reason) : Prop :=
  t.entryOf k = none ∧ t.alloc.leases = s.alloc.leases ∧ t.alloc.committed = s.alloc.committed ∧
  t.alloc.state = s.alloc.state ∧ t.power = s.power ∧ t.mon = s.mon ∧ t.raised = s.raised ∧ s.HostSame t ∧ s.OthersSame t k ∧
  (s.entryOf k = none → t.lineOf k = s.lineOf k ∧ t.alloc = s.alloc ∧ t.notices = s.notices) ∧
  (∀ e, s.entryOf k = some e →
    (t.lineOf k).outSession = (s.lineOf k).outSession ∧ (t.lineOf k).outRecall = (s.lineOf k).outRecall ∧
    (t.lineOf k).outClaim = claimAfter (s.lineOf k).outClaim (.deny r) ∧ t.alloc.passDue = true ∧
    (s.isBeneficiary k = false → t.alloc.reclaim = s.alloc.reclaim ∧ t.alloc.earmark = s.alloc.earmark ∧
      t.notices = s.notices.take .denied (some k) r false e.wanted) ∧
    (s.isBeneficiary k = true → t.alloc.reclaim = none ∧ t.alloc.earmark = 0 ∧
      t.notices = (s.notices.take .denied (some k) r false e.wanted).take .reclaimEnd (some k) .preempt false 2))

/-- The lease of slot `k` is gone in `t` (R12, R116, R124): committed has fallen to the slot's floor, the gate is off, the
slot holds neither a place in the Ramp Queue nor the ramp resource, its watch is disarmed and its run count is 0 (R134). The
ramp record keeps its retry count and class, the aux rail is on. -/
def State.LeaseOff (s t : State) (k : Slot) : Prop :=
  t.leaseOf k = none ∧
  t.alloc.committed = s.alloc.committed + s.floorOf k - s.commitment k ∧
  (t.rampOf k).state = .none ∧ (t.rampOf k).tag = 0 ∧ (t.rampOf k).gate = false ∧
  (t.rampOf k).retry = (s.rampOf k).retry ∧ (t.rampOf k).cls = (s.rampOf k).cls ∧
  k ∉ t.power.queue ∧ t.power.holder ≠ some k ∧
  (t.monOf k).watchArmed = false ∧ (t.monOf k).run = 0

/-- The lease of slot `k` has been dropped in `t`: it is gone with its path, and a marked LOWER's fall has gone to the earmark. -/
def State.LeaseGone (s t : State) (k : Slot) : Prop := s.LeaseOff t k ∧ s.DropCredits t k

/-- The session of slot `k` has ended in `t` with `cause`, in state `st` (R88, R110): no lease, no entry, an empty outbox but
for a SEVER where one is due, the pending frame given up and the link UP, the admit flag clear, the descriptor kept only in
FAULTED, the tag and the counters kept, the strike lifted but in FAULTED (R134). -/
def State.SessionEnded (s t : State) (k : Slot) (cause : Reason) (st : SessState) : Prop :=
  t.leaseOf k = none ∧ t.entryOf k = none ∧
  ((t.sessOf k).state = st ∧ (t.sessOf k).admitFlag = false ∧ (t.sessOf k).lastEnd = cause ∧
    (t.sessOf k).tag = (s.sessOf k).tag ∧ (t.sessOf k).desc = (if st = .faulted then (s.sessOf k).desc else none) ∧
    (t.sessOf k).protoErrors = (s.sessOf k).protoErrors) ∧
  ((t.lineOf k).outRecall = none ∧ (t.lineOf k).outClaim = none ∧
    (t.lineOf k).outSession = (if cause.severs = true ∧ (s.lineOf k).lost = false then some (.sever cause) else none) ∧
    (t.lineOf k).pendingFrame = none ∧ (t.lineOf k).retries = 0 ∧ (t.lineOf k).lost = false ∧ (t.lineOf k).grace = none ∧
    (t.lineOf k).counters = (s.lineOf k).counters ∧ (t.lineOf k).seq = (s.lineOf k).seq) ∧
  (t.rampOf k).aux = st.auxOn ∧
  (t.monOf k).run = 0 ∧
  (t.monOf k).struck = (if st = .faulted then (s.monOf k).struck else false) ∧
  t.alloc.committed = s.alloc.committed + s.floorOf k - s.commitment k

/-- A recall of slot `k`'s ON lease to `target`, below its granted tier, stands in `t` (R46, R47, R48): a RAISE is cancelled with
its GRANT, a LOWER keeps its deadline unless its target falls, RECALL is queued and RECALL_ISSUED posted. Granted tier and
draw stay. -/
def State.RecallStands (s t : State) (k : Slot) (target : Nat) (origin : RecallOrigin) : Prop :=
  ∀ l, s.leaseOf k = some l → ∃ tier left : Nat,
    (match l.trans with
      | some (.lower old _ _ rest) =>
        tier = min old target ∧ left = if target < old then s.settings.settleTime * 10 else rest
      | _ => tier = target ∧ left = s.settings.settleTime * 10) ∧
    t.leaseOf k = some { l with trans := some (.lower tier (s.drawOf k tier) origin left) } ∧
    (t.lineOf k).outRecall = some (.recall tier (max 1 ((left + 9) / 10))) ∧
    (t.lineOf k).outSession = (s.lineOf k).outSession ∧
    (t.lineOf k).outClaim =
      (match l.trans, (s.lineOf k).outClaim with
        | some (.raise _ _ _), some (.grant _ _) => some (.deny .cancelled)
        | _, m => m) ∧
    t.alloc.committed = s.alloc.committed + max (s.floorOf k) l.draw - s.commitment k ∧
    s.PassDueBy t (max (s.floorOf k) l.draw < s.commitment k) ∧
    t.notices = s.notices.take .recallIssued (some k) origin.reason false tier

/-- A recall of slot `k`'s ON lease to a tier that is not below its granted one (R47): a RAISE is cancelled with its GRANT, and
nothing more is done. -/
def State.RecallNotIssued (s t : State) (k : Slot) : Prop :=
  ∀ l, s.leaseOf k = some l →
    t.leaseOf k = some { l with trans := match l.trans with
      | some (.raise _ _ _) => none
      | x => x } ∧
    (t.lineOf k).outRecall = (s.lineOf k).outRecall ∧ (t.lineOf k).outSession = (s.lineOf k).outSession ∧
    (t.lineOf k).outClaim =
      (match l.trans, (s.lineOf k).outClaim with
        | some (.raise _ _ _), some (.grant _ _) => some (.deny .cancelled)
        | _, m => m) ∧
    t.alloc.committed = s.alloc.committed + max (s.floorOf k) l.draw - s.commitment k ∧
    s.PassDueBy t (max (s.floorOf k) l.draw < s.commitment k) ∧ t.notices = s.notices

/-- The lease of slot `k` has been dropped and its session settled in `t` (R53, R91, R36): STANDBY with admit flag `flag` on an
enabled slot, without an entry when the flag is clear, and otherwise, unless a RESTORE is raised (`restores`), with the entry it
had; the session ended with cause BARRED on a disabled one. The drop, the leaving of an entry and a RESTORE bring a pass. `q` is
the Notice Queue with the drop's own notice. -/
def State.Settles (s t : State) (k : Slot) (flag restores : Bool) (q : NoticeQueue) : Prop :=
  s.LeaseGone t k ∧
  s.PassDueBy t (s.DropCalls k ∨ (restores = true ∧ (t.entryOf k).isSome = true) ∨
    ((s.entryOf k).isSome = true ∧ (restores = true ∨ flag = false ∨ (s.policyOf k).enabled = false))) ∧
  ((s.policyOf k).enabled = true →
    (t.sessOf k).state = .standby ∧ (t.sessOf k).admitFlag = flag ∧ (t.sessOf k).tag = (s.sessOf k).tag ∧
    (t.sessOf k).desc = (s.sessOf k).desc ∧ (t.rampOf k).aux = true ∧ (flag = false → t.entryOf k = none) ∧
    (flag = true → restores = false → t.entryOf k = s.entryOf k)) ∧
  ((s.policyOf k).enabled = false → s.SessionEnded t k .barred .barred) ∧
  (s.alloc.reclaim = none → (s.entryOf k = none ∨ ((s.policyOf k).enabled = true ∧ flag = true)) →
    ((s.policyOf k).enabled = true → restores = true → flag = false) →
    t.notices = if (s.policyOf k).enabled = true then q
      else q.take .sessionClosed (some k) .barred false (s.sessOf k).tag.toNat)

/-- A RESTORE for slot `k`'s lost tier stands in `t` (R33): joined as a new entry, or merged into the slot's entry, where the
checks of the merged tiers pass. -/
def State.Restored (s t : State) (k : Slot) (tier : Nat) : Prop :=
  let wanted := match s.entryOf k with
    | some e => max e.wanted tier
    | none => tier
  1 ≤ wanted → wanted ≤ s.tiersOf k → s.drawOf k 1 ≤ (s.policyOf k).cap →
  max (s.floorOf k) (s.drawOf k 1) + s.floorSum ≤ s.available + s.floorOf k →
  ∃ e, t.entryOf k = some e ∧ e.origin = .restore ∧ e.wanted = wanted ∧ e.least = 1 ∧
    (match s.entryOf k with
      | some old => e.passCount = old.passCount ∧ e.tag = old.tag
      | none => e.passCount = 0 ∧ e.tag = (s.sessOf k).tag)

/-- Entry `e` has joined the Demand Queue at position `pos` (R24): behind every entry of a higher or equal key up to the last
such, the others in the order they had; and a pass is due (R37). -/
def State.Joined (s t : State) (e : Entry) (pos : Nat) : Prop :=
  (∃ ahead behind, s.alloc.queue = ahead ++ behind ∧ t.alloc.queue = ahead ++ e :: behind ∧ pos = ahead.length ∧
    (∀ x ∈ behind, x.keyGe e = false) ∧ (∀ x, ahead.getLast? = some x → x.keyGe e = true)) ∧ t.alloc.passDue = true

/-- The reason `r` of the first admission check that a claim of slot `k` for `wanted` and `least` fails (R27). -/
def State.ClaimFails (s : State) (k : Slot) (wanted least : Nat) (r : Reason) : Prop :=
  let granted := match s.leaseOf k with
    | none => 0
    | some l =>
      match l.trans with
      | some (.lower target _ _ _) => target
      | _ => l.tier
  let raising := match s.leaseOf k with
    | none => false
    | some l =>
      match l.trans with
      | some (.raise _ _ _) => true
      | _ => false
  if wanted < 1 ∨ s.tiersOf k < wanted ∨ least < 1 ∨ s.tiersOf k < least ∨ wanted < least then r = .badList
  else if (s.sessOf k).admitFlag = false then r = .notAdmitted
  else if raising = true then r = .inTransition
  else if wanted ≤ granted then r = .notHigher
  else if (s.policyOf k).cap < s.drawOf k least then r = .overCap
  else if s.available + s.floorOf k < max (s.floorOf k) (s.drawOf k least) + s.floorSum then r = .neverFits
  else False

/-- A command of the host other than STORE_POLICY has completed with result `r` (R160): CMD_RESULT shows it and CMD_DONE is set. -/
def State.answered (r : CmdResult) (s : State) : State :=
  { s with cmd := { s.cmd with result := r }, host := { s.host with cmdDone := true } }

/-- A word at `addr` opens a transaction or is the next word of the one in progress (R154). Any other word first ends the
transaction in progress, which is the model's choice (log entry 30). -/
def State.WordFits (s : State) (write : Bool) (addr : BitVec 7) : Prop :=
  s.host.burst = none ∨ s.host.burst = some ⟨write, addr⟩

/-- The blocks that belong to the slots and the budget stand as they stood. -/
def State.PowerSame (s t : State) : Prop :=
  t.alloc = s.alloc ∧ t.sess = s.sess ∧ t.line = s.line ∧ t.power = s.power ∧ t.mon = s.mon

end Sys2Proof.Machine
end

