-- ==== Sys2Proof/WellFormed.lean ====
section
/-! DEFINITION. Which commands are well formed: operands that the part's pins, registers and frames can carry. Every command has a meaning, well formed or not. -/

namespace Sys2Proof

/-- The addresses a REGISTER_WRITE row covers: those whose write has no row of its own (R155, R178). -/
def plainWriteAddr (addr : BitVec 7) : Bool :=
  !([0x02, 0x03, 0x15, 0x18, 0x19].contains addr.toNat) && (Machine.settingAt addr).isNone

/-- A command's operands are ones the part can be given. -/
def Instr.wellFormed : Instr → Bool
  | .scan samples bulk =>
    allSlots.all (fun k => decide ((samples.get k).power ≤ 8191) && decide ((samples.get k).voltage ≤ 1023)) && decide (bulk ≤ 1023)
  | .sagBegin bulk => decide (bulk ≤ 1023)
  | .responseComplete _ bytes _ => decide (bytes.length ≤ 25)
  | .hello _ _ _ _ _ _ draws => decide (draws.length ≤ 6)
  | .budgetRegisterRead addr => decide (0x04 ≤ addr.toNat) && decide (addr.toNat ≤ 0x0A)
  | .registerWrite addr _ => plainWriteAddr addr
  | .deviceReset _ | .policyLoad | .insertion _ | .removal _ | .outputGood _ | .rampDone _ _ | .rampStart | .rampTimeout _
  | .backoffEnd _ | .overdrawStrike _ _ _ | .strikeClear _ | .sagEnd | .recallDeadline _ | .pollTimer _ | .frameSend _
  | .lineGapTimeout _ | .responseTimeout _ | .linkGraceExpiry _ | .claim _ _ _ _ | .yieldTier _ _ _ | .ready _ _ _
  | .moduleFault _ _ _ | .noneMessage _ _ | .applyPolicy _ | .setBudget _ _ | .admitSlot _ | .evict _ _ | .setTier _ _
  | .clearFault _ | .rescan _ | .storePolicy | .eraseComplete | .programComplete | .verifyComplete _ | .setBackfill _
  | .setPreempt _ | .setIntEnables _ _ | .portReset | .settingWrite _ _ | .passLimitWrite _ | .statusW1C _
  | .tableSelWrite _ | .tableDataRead | .tableDataWrite _ | .noticeDataRead | .transactionEnd | .presentChange _ _
  | .responseBegin _ => true

end Sys2Proof
end

