-- ==== Sys2Proof/Certificates/Slice0/Obligations.lean ====
section
/-! DEFINITION. The statements for the provers. `State.finish` stands in them for the end of a happening at the
Allocator and the Power Path Unit: the test for the end of shedding, the passes and the hand-on of the ramp resource;
FinishEndsTheHappening says what it does. -/

open Sys2Proof Sys2Proof.Machine

/-! ### The queue of commands, reset and load -/

/-- The command at the front of the queue runs on the state with the queue's rest. -/
def Obligations.StepTakesTheFrontCommand : Prop :=
  ∀ (c : Instr) (rest : List Instr) (s : State),
    step { s with pending := c :: rest } = exec c { s with pending := rest }

/-- The passing of time. That the block's own time runs when no command waits, and which of several due things comes first, is the
model's choice (log entries 1, 15 and 31), and so is that no scan and no end of a store phase comes by itself, however long it
has been due (log entries 42 and 49): nothing before the load; after it a raised happening first, then an event whose
timer has run out, and only then one millisecond. An event is due 50 ms after PRESENT goes active and 2 ms after it goes
inactive (R75, R76), when a ramp or back-off timer (R121, R122), a recall deadline (R17), a link-grace (R110) or poll timer
(R102) or the sag hold-off (R139) has run out, 3 ms after a frame became due without a gap (R96), and 1 ms after a frame whose
response has not begun and 3 ms after one whose response is not complete (R95). A millisecond moves every running timer by one
and nothing else. -/
def Obligations.AnEmptyQueueLetsTheBlockRunOn : Prop :=
  ∀ s : State, s.pending = [] →
    let due := fun (c : Instr) =>
      (c = .sagEnd ∧ s.mon.sag = .holdoff ∧ s.mon.holdoff = 0) ∨ ∃ (k : Slot) (n : Nat),
        (c = .insertion k ∧ (s.sessOf k).presence = .toInsertion n ∧ 50 ≤ n) ∨
        (c = .removal k ∧ (s.sessOf k).presence = .toRemoval n ∧ 2 ≤ n) ∨
        (c = .rampTimeout k ∧ (s.rampOf k).state = .ramping ∧ (s.rampOf k).timer = 0) ∨
        (c = .backoffEnd k ∧ (s.rampOf k).state = .backoff ∧ (s.rampOf k).timer = 0) ∨
        (c = .recallDeadline k ∧ ∃ l t d o, s.leaseOf k = some l ∧ l.trans = some (.lower t d o 0)) ∨
        (c = .lineGapTimeout k ∧ (∃ p, (s.lineOf k).phase = .due n p) ∧ 3 ≤ n) ∨
        (c = .responseTimeout k ∧ ((∃ f, (s.lineOf k).phase = .awaiting f n) ∧ 1 ≤ n ∨
          (∃ f, (s.lineOf k).phase = .receiving f n) ∧ 3 ≤ n)) ∨
        (c = .linkGraceExpiry k ∧ (s.lineOf k).grace = some 0) ∨ (c = .pollTimer k ∧ (s.lineOf k).poll = some 0)
    (s.store.startDone = false → step s = .next s) ∧
    (s.store.startDone = true →
      (∀ c rest, s.raised = c :: rest → step s = exec c s) ∧
      (s.raised = [] → (∃ c, due c) → ∃ c, due c ∧ s.dueEvent = some c ∧ step s = exec c s) ∧
      (s.raised = [] → (∀ c, ¬ due c) → s.dueEvent = none ∧ ∃ t : State, step s = .next t ∧
        t = { s with
          sess := t.sess, line := t.line, alloc := { s.alloc with leases := t.alloc.leases }
          power := { s.power with slots := t.power.slots }
          mon := { s.mon with holdoff := s.mon.holdoff - 1, scanTimer := s.mon.scanTimer - 1 } } ∧
        ∀ k : Slot,
          t.sessOf k = { s.sessOf k with presence := match (s.sessOf k).presence with
            | .idle => .idle
            | .toInsertion n => .toInsertion (n + 1)
            | .toRemoval n => .toRemoval (n + 1) } ∧
          t.leaseOf k = (s.leaseOf k).map (fun l => { l with trans := l.trans.map (fun
            | .raise a d o => .raise a d o
            | .lower a d o n => .lower a d o (n - 1)) }) ∧
          t.rampOf k = { s.rampOf k with timer := (s.rampOf k).timer - 1 } ∧
          t.lineOf k = { s.lineOf k with
            grace := (s.lineOf k).grace.map Nat.pred, poll := (s.lineOf k).poll.map Nat.pred
            phase := match (s.lineOf k).phase with
              | .idle => .idle
              | .due n p => .due (n + 1) p
              | .awaiting f n => .awaiting f (n + 1)
              | .receiving f n => .receiving f (n + 1) }))

/-- The reset tables of chapters 1 to 10, field by field (R21, R45, R73, R113, R126, R141, R153, R168, R176). -/
def Obligations.ResetLeavesEveryBlockAtRest : Prop :=
  let s := State.reset
  (∀ k : Slot,
    (s.sessOf k).state = .vacant ∧ (s.sessOf k).tag = 0 ∧ (s.sessOf k).admitFlag = false ∧ (s.sessOf k).desc = none ∧
    (s.sessOf k).lastEnd = .none ∧ (s.sessOf k).refusal = .none ∧ (s.sessOf k).protoErrors = 0 ∧ s.leaseOf k = none ∧ s.entryOf k = none ∧
    ((s.rampOf k).state = .none ∧ (s.rampOf k).tag = 0 ∧ (s.rampOf k).cls = .deferrable ∧ (s.rampOf k).retry = 0 ∧
      (s.rampOf k).timer = 0 ∧ (s.rampOf k).gate = false ∧ (s.rampOf k).aux = false) ∧
    ((s.lineOf k).outSession = none ∧ (s.lineOf k).outRecall = none ∧ (s.lineOf k).outClaim = none ∧
      (s.lineOf k).pendingFrame = none ∧ (s.lineOf k).retries = 0 ∧ (s.lineOf k).seq = false ∧ (s.lineOf k).lost = false ∧
      (s.lineOf k).grace = none ∧ (s.lineOf k).poll = none ∧ (s.lineOf k).counters = ⟨0, 0, 0, 0, 0, 0⟩ ∧
      (s.lineOf k).phase = .idle) ∧
    ((s.monOf k).power = 0 ∧ (s.monOf k).voltage = 0 ∧ (s.monOf k).peak = 0 ∧ (s.monOf k).average = 0 ∧ (s.monOf k).run = 0 ∧
      (s.monOf k).struck = false ∧ (s.monOf k).clean = 0 ∧ (s.monOf k).watchArmed = false ∧
      (s.monOf k).watchCount = 0)) ∧
  (s.alloc.earmark = 0 ∧ s.alloc.reclaim = none ∧ s.alloc.state = .running ∧ s.alloc.sagCondition = false) ∧
  (s.power.queue = [] ∧ s.power.holder = none ∧ s.power.hold = false) ∧
  (s.mon.sag = .normal ∧ s.mon.low = 0 ∧ s.mon.bulk = 0 ∧ s.mon.holdoff = 0) ∧
  s.cmd.staging = { enabled := false, cls := .deferrable, rank := 0, floor := 0, cap := 4095, startMode := .host } ∧
  s.cmd.result = .ok ∧ s.store.state = .idle ∧ s.store.snapshot = none ∧ s.store.startDone = false ∧
  (s.host.cmd = 0 ∧ s.host.arg0 = 0 ∧ s.host.arg1 = 0 ∧ s.host.armed = false ∧ s.host.tableSel = 0 ∧ s.host.wordPtr = 0 ∧
    s.host.tableBuf = [] ∧ s.host.noticeBuf = .empty ∧ s.host.noticePtr = 0 ∧ s.host.budget = none ∧ s.host.cmdDone = false ∧ s.host.cmdOverrun = false ∧ s.host.badWrite = false ∧ s.host.intNoticeEn = false ∧
    s.host.intCmdEn = false) ∧
  (s.notices.records = [] ∧ s.notices.nextSeq = 0 ∧ s.notices.lostCount = 0) ∧ s.intAsserted = false

/-- The laws of Safety.lean hold after reset. Those about the live policy and the budget hold there of the factory defaults, which
are what the model holds before the load: that is its choice (log entry 7). -/
def Obligations.ResetMeetsEveryLaw : Prop :=
  State.reset.Lawful ∧ State.reset.OrderLaw ∧ State.reset.PassLaw ∧ State.reset.NoticeLaw

/-- DEVICE_RESET (R144, R151): every block takes its reset state; of the two copies the active one is untouched and the
target of a store cut short is left as R151 gives. The model's choices: how far the phase of that store had come is the operand
(log entry 11); until the load the live policy, the settings, the scan timer, the active pointer and generation hold the values
that the load gives without a VALID copy (log entry 7); the PRESENT pins and the waiting commands lie outside the part (log
entry 8). -/
def Obligations.DeviceResetKeepsTheCopies : Prop :=
  ∀ (reached : Bool) (s : State), ∃ t : State, exec (.deviceReset reached) s = .next t ∧
    t.host = State.reset.host ∧ t.cmd = State.reset.cmd ∧ t.alloc = State.reset.alloc ∧ t.sess = State.reset.sess ∧
    t.line = State.reset.line ∧ t.power = State.reset.power ∧ t.mon = State.reset.mon ∧ t.notices = State.reset.notices ∧
    t.raised = [] ∧ t.present = s.present ∧ t.pending = s.pending ∧
    t.store = { State.reset.store with copyA := t.store.copyA, copyB := t.store.copyB } ∧
    t.store.copyOf s.store.active = s.store.copyOf s.store.active ∧
    t.store.copyOf s.store.active.other =
      match s.store.state, s.store.snapshot, reached with
      | .idle, _, _ => s.store.copyOf s.store.active.other
      | .erasing, _, true => .blank
      | .erasing, _, false => .partly
      | .programming, _, true => .partly
      | .programming, _, false => .blank
      | .verifying, some i, true => .whole i
      | .verifying, some i, false => .unchecked i
      | .verifying, none, _ => s.store.copyOf s.store.active.other

/-- POLICY_LOAD (R144, R145, R146): the newer VALID copy by generation modulo 65536, A when neither is newer, the one VALID
copy, or the factory defaults with B as active copy and generation 0. -/
def Obligations.TheLoadTakesTheNewerValidCopy : Prop :=
  ∀ s : State, s.store.startDone = false → ∃ (t : State) (src : Source) (img : Image),
    exec .policyLoad s = .next t ∧
    (match s.store.copyA.image?, s.store.copyB.image? with
      | some a, some b =>
        if 1 ≤ (b.generation - a.generation).toNat ∧ (b.generation - a.generation).toNat ≤ 32767 then src = .b ∧ img = b
        else src = .a ∧ img = a
      | some a, none => src = .a ∧ img = a
      | none, some b => src = .b ∧ img = b
      | none, none => src = .defaults ∧ img = ⟨0, PerSlot.all PolicyRecord.factory, Settings.factory⟩) ∧
    t.cmd = { s.cmd with policy := img.records, settings := img.settings } ∧
    t.store = { s.store with
      active := if src = .a then .a else .b
      activeGen := img.generation
      report := ⟨s.store.copyA.classify, s.store.copyB.classify, src, img.generation.setWidth 8⟩
      startDone := true } ∧
    t.alloc = { s.alloc with committed := sumSlots (fun k => (img.records.get k).floorTerm) } ∧
    t.mon = { s.mon with scanTimer := img.settings.scanPeriod } ∧
    (∀ k, t.sessOf k = { s.sessOf k with presence := if s.present.get k = true then .toInsertion 0 else .idle }) ∧
    t.notices = s.notices.take .start none .none false img.generation.toNat ∧
    t.host = s.host ∧ t.line = s.line ∧ t.power = s.power ∧ t.present = s.present ∧ t.raised = s.raised ∧ t.pending = s.pending

/-- What VALID asks of a copy (R142, R143): a check value that matches, every field in its range and the floor law. A copy whose
check value field is still erased matches exactly when its check value is 0xFFFF. -/
def Obligations.AValidCopyKeepsTheFloorLaw : Prop :=
  ∀ (c : Copy) (i : Image), c.image? = some i ↔
    (c = .whole i ∨ (c = .unchecked i ∧ i.check = 0xFFFF)) ∧
    (∀ k, (i.records.get k).rank ≤ 7 ∧ (i.records.get k).floor ≤ (i.records.get k).cap ∧ 1 ≤ (i.records.get k).cap ∧
      (i.records.get k).cap ≤ 4095) ∧
    (i.settings.supplyLimit ≤ 32767 ∧ i.settings.reserve ≤ i.settings.supplyLimit ∧
      1 ≤ i.settings.settleTime ∧ i.settings.settleTime ≤ 255 ∧ 5 ≤ i.settings.pollPeriod ∧ i.settings.pollPeriod ≤ 255 ∧
      i.settings.lineRetries ≤ 3 ∧ 5 ≤ i.settings.linkGrace ∧ i.settings.linkGrace ≤ 255 ∧
      5 ≤ i.settings.rampTimeout ∧ i.settings.rampTimeout ≤ 255 ∧ i.settings.rampRetries ≤ 3 ∧
      (i.settings.scanPeriod = 2 ∨ i.settings.scanPeriod = 4 ∨ i.settings.scanPeriod = 8 ∨ i.settings.scanPeriod = 16) ∧
      1 ≤ i.settings.overdrawCount ∧ i.settings.overdrawCount ≤ 15 ∧ i.settings.overdrawMargin ≤ 1023 ∧
      i.settings.passLimit ≤ 15 ∧ i.settings.sagLevel ≤ 1000 ∧ 10 ≤ i.settings.sagHoldoff ∧ i.settings.sagHoldoff ≤ 255) ∧
    sumSlots (fun k => if (i.records.get k).enabled = true then (i.records.get k).floor else 0) ≤
      i.settings.supplyLimit - i.settings.reserve

/-! ### Presence, the ramp, the monitor -/

/-- PRESENT_CHANGE and INSERTION (R75, R76). That a timer at any count may be taken as run out is the model's choice (log entry 2). -/
def Obligations.AnEnabledSlotIsInsertedListening : Prop :=
  ∀ (k : Slot) (s : State), s.store.startDone = true →
    (∀ active, s.present.get k ≠ active →
      exec (.presentChange k active) s = .next { s with
        present := s.present.set k active
        sess := s.sess.set k { s.sessOf k with
          presence := if (s.sessOf k).state = .vacant then (if active then .toInsertion 0 else .idle)
                      else (if active then .idle else .toRemoval 0) } }) ∧
    (∀ n, (s.sessOf k).state = .vacant → (s.sessOf k).presence = .toInsertion n →
      ∃ t : State, exec (.insertion k) s = .next t ∧
        t.sessOf k = { s.sessOf k with
          presence := .idle, state := if (s.policyOf k).enabled = true then .listening else .barred } ∧
        t.rampOf k = { s.rampOf k with aux := (s.policyOf k).enabled } ∧
        ((s.policyOf k).enabled = true → (t.lineOf k).poll = some s.settings.pollPeriod) ∧
        ((s.policyOf k).enabled = false → (t.lineOf k).poll = none ∧ (t.lineOf k).outSession = none) ∧
        s.HostSame t ∧ s.OthersSame t k ∧ t.alloc = s.alloc ∧ t.monOf k = s.monOf k ∧ t.notices = s.notices ∧
        t.power.queue = s.power.queue ∧ t.power.holder = s.power.holder ∧ t.raised = s.raised)

/-- REMOVAL (R76): one happening for every block; CUT only when the gate was on, and the tag of SESSION_CLOSED is 0 without an
open session. A pass follows the end of a LOWER, a fall of committed and the leaving of an entry; that it follows no other drop
is the model's choice (log entry 44). A marked LOWER credits its fall to the earmark (R60), and a beneficiary's entry that leaves
ends its reclaim (R63). -/
def Obligations.RemovalVacatesTheSlot : Prop :=
  ∀ (k : Slot) (s : State) (n : Nat), s.store.startDone = true → (s.sessOf k).state ≠ .vacant →
    (s.sessOf k).presence = .toRemoval n →
    ∃ u : State, exec (.removal k) s = .next u.finish ∧ s.SessionEnded u k .removed .vacant ∧
      (u.sessOf k).presence = .idle ∧ (u.lineOf k).outSession = none ∧ (u.lineOf k).phase = .idle ∧
      ((s.leaseOf k).isSome = true → s.LeaseGone u k) ∧ s.HostSame u ∧ s.OthersSame u k ∧ u.raised = s.raised ∧
      u.alloc.state = s.alloc.state ∧ s.PassDueBy u (s.DropCalls k ∨ (s.entryOf k).isSome = true) ∧
      ((s.entryOf k).isSome = true → s.isBeneficiary k = true → u.alloc.reclaim = none ∧ u.alloc.earmark = 0) ∧
      (s.alloc.reclaim = none → u.notices =
        (if (s.rampOf k).gate = true then s.notices.take .cut (some k) .removed false (s.grantedTier k) else s.notices).take
          .sessionClosed (some k) .removed false (if (s.sessOf k).state.isOpen = true then (s.sessOf k).tag.toNat else 0))

/-- RAMP_START (R118, R119): the head of the Ramp Queue takes the resource when it is free and the hold is clear; no budget
quantity moves. -/
def Obligations.TheHeadOfTheRampQueueRamps : Prop :=
  ∀ s : State, s.store.startDone = true →
    ((s.power.holder ≠ none ∨ s.power.hold = true ∨ s.power.queue = []) → exec .rampStart s = .next s) ∧
    (∀ k rest, s.power.holder = none → s.power.hold = false → s.power.queue = k :: rest → k ∉ rest →
      ∃ t : State, exec .rampStart s = .next t ∧
        t.power.queue = rest ∧ t.power.holder = some k ∧ t.power.hold = false ∧
        t.rampOf k = { s.rampOf k with state := .ramping, gate := true, timer := s.settings.rampTimeout } ∧
        t.monOf k = { s.monOf k with watchArmed := true, watchTag := (s.rampOf k).tag, watchCount := 0 } ∧
        t.sessOf k = { s.sessOf k with state := .ramping } ∧
        t.alloc = s.alloc ∧ t.line = s.line ∧ t.notices = s.notices ∧ t.raised = s.raised ∧
        s.HostSame t ∧ s.OthersSame t k)

/-- RAMP_DONE (R120): taken only for the slot's own ramp, under its tag; any other report is discarded. That the watch it disarms
keeps its tag and its count is the model's choice (log entry 28). -/
def Obligations.RampDoneTurnsTheLeaseOn : Prop :=
  ∀ (k : Slot) (g : Byte) (s : State), s.store.startDone = true →
    (¬ ((s.rampOf k).state = .ramping ∧ (s.rampOf k).tag = g) →
      exec (.rampDone k g) s = .next { s with raised := s.raised.erase (.rampDone k g) }) ∧
    ((s.rampOf k).state = .ramping → (s.rampOf k).tag = g →
      ∃ u : State, exec (.rampDone k g) s = .next u.finish ∧
        u.rampOf k = { s.rampOf k with state := .none, tag := 0, retry := 0, timer := 0 } ∧
        u.power.holder = (if s.power.holder = some k then none else s.power.holder) ∧ u.power.queue = s.power.queue ∧
        u.monOf k = { s.monOf k with watchArmed := false } ∧
        u.sessOf k = { s.sessOf k with state := .on } ∧
        (∀ l, s.leaseOf k = some l → (u.lineOf k).outClaim = some (.grant l.tier l.short)) ∧
        u.alloc = s.alloc ∧ u.notices = s.notices ∧ u.raised = s.raised.erase (.rampDone k g) ∧
        s.HostSame u ∧ s.OthersSame u k)

/-- RAMP_TIMEOUT and BACKOFF_END (R121, R122, R117): a retry keeps lease and commitment through a back-off of 100 ms; with no
retry left the slot is FAULTED (R92). The end of a back-off puts the slot behind every slot of its class and, if ESSENTIAL,
ahead of every DEFERRABLE one. The model's choices: a watch that is disarmed keeps its tag and count (log entry 28), and a drop
that frees nothing brings no pass (log entry 44). What the drop does to a reclaim is as R60 and R63 have it. -/
def Obligations.ATimedOutRampIsRetriedOrFailed : Prop :=
  ∀ (k : Slot) (s : State), s.store.startDone = true →
    ((s.rampOf k).state = .ramping → (s.rampOf k).retry < s.settings.rampRetries →
      ∃ u : State, exec (.rampTimeout k) s = .next u.finish ∧
        u.rampOf k = { s.rampOf k with state := .backoff, gate := false, retry := (s.rampOf k).retry + 1, timer := 100 } ∧
        u.power.holder = (if s.power.holder = some k then none else s.power.holder) ∧ u.power.queue = s.power.queue ∧
        u.monOf k = { s.monOf k with watchArmed := false } ∧ u.sessOf k = { s.sessOf k with state := .rampWait } ∧
        u.lineOf k = s.lineOf k ∧ u.alloc = s.alloc ∧
        u.notices = s.notices.take .rampRetry (some k) .none false ((s.rampOf k).retry + 1) ∧
        s.HostSame u ∧ s.OthersSame u k ∧ u.raised = s.raised) ∧
    ((s.rampOf k).state = .ramping → s.settings.rampRetries ≤ (s.rampOf k).retry → (s.leaseOf k).isSome = true →
      ∃ u : State, exec (.rampTimeout k) s = .next u.finish ∧ s.SessionEnded u k .rampFail .faulted ∧ s.LeaseGone u k ∧
        s.PassDueBy u (s.DropCalls k ∨ (s.entryOf k).isSome = true) ∧
        (s.alloc.reclaim = none → u.notices = (s.notices.take .faulted (some k) .rampFail false (s.grantedTier k)).take
          .sessionClosed (some k) .rampFail false (s.sessOf k).tag.toNat) ∧
        s.HostSame u ∧ s.OthersSame u k ∧ u.raised = s.raised) ∧
    ((s.rampOf k).state = .backoff → k ∉ s.power.queue →
      ∃ u l r, exec (.backoffEnd k) s = .next u.finish ∧
        u.rampOf k = { s.rampOf k with state := .queued, timer := 0 } ∧
        s.power.queue = l ++ r ∧ u.power.queue = l ++ k :: r ∧ u.power.holder = s.power.holder ∧
        ((s.rampOf k).cls = .deferrable → r = []) ∧
        ((s.rampOf k).cls = .essential → (∀ j ∈ l, (s.rampOf j).cls = .essential) ∧
          ∀ j, r.head? = some j → (s.rampOf j).cls = .deferrable) ∧
        u.sess = s.sess ∧ u.line = s.line ∧ u.alloc = s.alloc ∧ u.mon = s.mon ∧ u.notices = s.notices ∧ s.HostSame u ∧
        s.OthersSame u k ∧ u.raised = s.raised)

/-! ### The scan and its reports -/

/-- SCAN (R128, R129, R130): saturated samples become the kept values of every slot, whatever its state; an armed watch counts
scans at 90 percent of bulk or above and is disarmed by the second in a row. That a watch which is not armed keeps its tag and
count, the one just disarmed among them, is the model's choice (log entry 28). -/
def Obligations.AScanKeepsEverySample : Prop :=
  ∀ (samples : PerSlot Sample) (bulk : Nat) (s : State), s.store.startDone = true →
    ∃ t : State, exec (.scan samples bulk) s = .next t ∧
      t.mon.bulk = min 1023 bulk ∧ t.mon.scanTimer = s.settings.scanPeriod ∧
      (∀ k : Slot,
        let m := s.monOf k
        let p := min 8191 (samples.get k).power
        let v := min 1023 (samples.get k).voltage
        (t.monOf k).power = p ∧ (t.monOf k).voltage = v ∧ (t.monOf k).peak = max m.peak p ∧
        (t.monOf k).window = (p :: m.window).take 16 ∧ (t.monOf k).watchTag = m.watchTag ∧
        (m.watchArmed = false → (t.monOf k).watchArmed = false ∧ (t.monOf k).watchCount = m.watchCount) ∧
        (m.watchArmed = true → 10 * v < 9 * min 1023 bulk → (t.monOf k).watchArmed = true ∧ (t.monOf k).watchCount = 0) ∧
        (m.watchArmed = true → 9 * min 1023 bulk ≤ 10 * v → (t.monOf k).watchCount = m.watchCount + 1 ∧
          (t.monOf k).watchArmed = decide (m.watchCount ≠ 1))) ∧
      t.sess = s.sess ∧ t.alloc = s.alloc ∧ t.line = s.line ∧ t.power = s.power ∧ t.notices = s.notices ∧ s.HostSame t

/-- SCAN (R132, R133, R134): only an ON lease is judged, against its granted draw plus OVERDRAW_MARGIN. -/
def Obligations.AScanStepsTheOverdrawCounts : Prop :=
  ∀ (samples : PerSlot Sample) (bulk : Nat) (s : State) (k : Slot), s.store.startDone = true →
    ∃ t : State, exec (.scan samples bulk) s = .next t ∧
      ((s.sessOf k).state ≠ .on → (t.monOf k).run = 0 ∧ (t.monOf k).struck = (s.monOf k).struck ∧
        (t.monOf k).clean = (s.monOf k).clean) ∧
      (∀ l, (s.sessOf k).state = .on → s.leaseOf k = some l →
        (l.draw + s.settings.overdrawMargin < min 8191 (samples.get k).power → (t.monOf k).clean = 0 ∧
          ((s.monOf k).run + 1 < s.settings.overdrawCount →
            (t.monOf k).run = (s.monOf k).run + 1 ∧ (t.monOf k).struck = (s.monOf k).struck) ∧
          (s.settings.overdrawCount ≤ (s.monOf k).run + 1 → (t.monOf k).run = 0 ∧ (t.monOf k).struck = true)) ∧
        (min 8191 (samples.get k).power ≤ l.draw + s.settings.overdrawMargin → (t.monOf k).run = 0 ∧
          ((s.monOf k).struck = false → (t.monOf k).struck = false ∧ (t.monOf k).clean = (s.monOf k).clean) ∧
          ((s.monOf k).struck = true → (s.monOf k).clean ≠ 255 →
            (t.monOf k).struck = true ∧ (t.monOf k).clean = (s.monOf k).clean + 1) ∧
          ((s.monOf k).struck = true → (s.monOf k).clean = 255 → (t.monOf k).struck = false ∧ (t.monOf k).clean = 0)))

/-- SCAN at the sag detector (R135): the low count first, then the state by the table, where a sag begins at the low count's
step from 1 to 2; and the reports the scan presents (R128, R130, R133, R136). Their order, watches before strikes before the
sag and lower slots first, is the model's choice (log entry 41), and so is that a hold-off timer which stops shows 0 (log entry
48). -/
def Obligations.AScanStepsTheSagDetectorAndReports : Prop :=
  ∀ (samples : PerSlot Sample) (bulk : Nat) (s : State), s.store.startDone = true →
    let b := min 1023 bulk
    let level := s.settings.sagLevel
    ∃ t : State, exec (.scan samples bulk) s = .next t ∧
      t.mon.low = (if b < level then min 2 (s.mon.low + 1) else 0) ∧
      (b < level → s.mon.low = 1 → t.mon.sag = .sagged ∧ t.mon.holdoff = 0) ∧
      (¬ (b < level ∧ s.mon.low = 1) →
        (s.mon.sag = .normal → t.mon.sag = .normal ∧ t.mon.holdoff = s.mon.holdoff) ∧
        (s.mon.sag = .sagged → level + 10 ≤ b → t.mon.sag = .holdoff ∧ t.mon.holdoff = s.settings.sagHoldoff * 10) ∧
        (s.mon.sag = .sagged → b < level + 10 → t.mon.sag = .sagged ∧ t.mon.holdoff = s.mon.holdoff) ∧
        (s.mon.sag = .holdoff → level + 10 ≤ b → t.mon.sag = .holdoff ∧ t.mon.holdoff = s.mon.holdoff) ∧
        (s.mon.sag = .holdoff → b < level + 10 → t.mon.sag = .sagged ∧ t.mon.holdoff = 0)) ∧
      t.raised = s.raised ++
        (allSlots.filter (fun k => (s.monOf k).watchArmed && decide ((s.monOf k).watchCount = 1) &&
          decide (9 * b ≤ 10 * min 1023 (samples.get k).voltage))).map (fun k => .rampDone k (s.monOf k).watchTag) ++
        allSlots.filterMap (fun k =>
          match (s.sessOf k).state, s.leaseOf k with
          | .on, some l =>
            if l.draw + s.settings.overdrawMargin < min 8191 (samples.get k).power ∧
                s.settings.overdrawCount ≤ (s.monOf k).run + 1 then
              some (.overdrawStrike k l.tag (if (s.monOf k).struck = false ∧ 2 ≤ l.tier then .first else .second))
            else none
          | _, _ => none) ++
        (if b < level ∧ s.mon.low = 1 then [.sagBegin b] else [])

/-- OUTPUT_GOOD (R130) and STRIKE_CLEAR (R134), each at its own last scan. The model's choices: each
changes nothing in any other state (log entry 4), and the watch that OUTPUT_GOOD disarms keeps its tag and the count 2 (log
entry 28). -/
def Obligations.OutputGoodReportsAndACleanRunClears : Prop :=
  ∀ (k : Slot) (s : State), s.store.startDone = true →
    ((s.monOf k).watchArmed = true → (s.monOf k).watchCount = 1 →
      exec (.outputGood k) s = .next { s with
        mon := { s.mon with slots := s.mon.slots.set k { s.monOf k with watchArmed := false, watchCount := 2 } }
        raised := s.raised ++ [.rampDone k (s.monOf k).watchTag] }) ∧
    (¬ ((s.monOf k).watchArmed = true ∧ (s.monOf k).watchCount = 1) → exec (.outputGood k) s = .next s) ∧
    ((s.sessOf k).state = .on → (s.monOf k).struck = true → (s.monOf k).clean = 255 →
      exec (.strikeClear k) s = .next { s with
        mon := { s.mon with slots := s.mon.slots.set k { s.monOf k with struck := false, clean := 0, run := 0 } } }) ∧
    (¬ ((s.sessOf k).state = .on ∧ (s.monOf k).struck = true ∧ (s.monOf k).clean = 255) →
      exec (.strikeClear k) s = .next s)

/-- OVERDRAW_STRIKE (R133): a first strike recalls an ON lease to tier 1, or stands as a warning on a lease already there; a
second ends the session FAULTED (R92). A report that finds the lease gone or of another tag is discarded (R9). That a first
strike which finds its lease in a ramp posts its notice and issues no recall is the model's choice (log entry 38), and so is
that a drop which frees nothing brings no pass (log entry 44). What the drop does to a reclaim is as R60 and R63 have it. -/
def Obligations.AStrikeRecallsAndThenFaults : Prop :=
  ∀ (k : Slot) (g : Byte) (n : StrikeNumber) (s : State), s.store.startDone = true →
    ((∀ l, s.leaseOf k = some l → l.tag ≠ g) →
      exec (.overdrawStrike k g n) s = .next { s with raised := s.raised.erase (.overdrawStrike k g n) }) ∧
    (∀ l, s.leaseOf k = some l → l.tag = g →
      ∃ u : State, exec (.overdrawStrike k g n) s = .next u.finish ∧ s.HostSame u ∧ s.OthersSame u k ∧
        u.raised = s.raised.erase (.overdrawStrike k g n) ∧
        (n = .first → (s.sessOf k).state = .on →
          u.sess = s.sess ∧ u.power = s.power ∧ u.mon = s.mon ∧ u.entryOf k = s.entryOf k ∧
          (2 ≤ l.tier → { s with notices := s.notices.take .overdrawStrike (some k) .overdraw false 1 }.RecallStands
            u k 1 .overdraw) ∧
          (l.tier ≤ 1 → { s with notices := s.notices.take .overdrawStrike (some k) .overdraw false 1 }.RecallNotIssued u k)) ∧
        (n = .first → (s.sessOf k).state = .rampWait ∨ (s.sessOf k).state = .ramping →
          u = { s with
            raised := s.raised.erase (.overdrawStrike k g n)
            notices := s.notices.take .overdrawStrike (some k) .overdraw false 1 }) ∧
        (n = .second → s.SessionEnded u k .overdraw .faulted ∧ s.LeaseGone u k ∧
          s.PassDueBy u (s.DropCalls k ∨ (s.entryOf k).isSome = true) ∧
          (s.alloc.reclaim = none → u.notices = ((s.notices.take .overdrawStrike (some k) .overdraw false 2).take
            .faulted (some k) .overdraw false l.tier).take .sessionClosed (some k) .overdraw false (s.sessOf k).tag.toNat)))

/-- SAG_BEGIN (R136): the condition and the ramp hold are set and no pass may run; every lease of a DEFERRABLE slot is dropped
and its session settled, with a RESTORE for the tier it held (R33); every other slot stands as it stood. CUT is posted after
SAG_BEGIN for each, lowest slot first; that all of them come before any notice of a settlement is the model's choice (log
entry 26). Each marked LOWER that ends so credits its fall to the earmark, while the reclaim stands (R60). -/
def Obligations.ASagCutsEveryDeferrableLease : Prop :=
  ∀ (bulk : Nat) (s : State), s.store.startDone = true →
    ∃ t : State, exec (.sagBegin bulk) s = .next t ∧
      t.alloc.sagCondition = true ∧ t.power.hold = true ∧ t.mon.sag = s.mon.sag ∧
      (s.alloc.state = .running → t.alloc.state = .sagHold) ∧ (s.alloc.state = .sagHold → t.alloc.state = .sagHold) ∧
      t.alloc.state ≠ .running ∧ s.HostSame t ∧ t.raised = s.raised.erase (.sagBegin bulk) ∧
      (∀ k, ((s.policyOf k).cls = .essential ∨ s.leaseOf k = none) → s.SameSlot t k) ∧
      (∀ k, (s.policyOf k).cls = .deferrable → (s.leaseOf k).isSome = true →
        t.leaseOf k = none ∧ (t.rampOf k).gate = false ∧ (t.rampOf k).state = .none ∧ k ∉ t.power.queue ∧
        t.power.holder ≠ some k ∧ (t.sessOf k).state = (if (s.policyOf k).enabled = true then .standby else .barred) ∧
        ((s.policyOf k).enabled = true → (t.sessOf k).admitFlag = (s.sessOf k).admitFlag ∧
          ((s.sessOf k).admitFlag = true → s.Restored t k (s.grantedTier k)))) ∧
      (∀ r, s.alloc.reclaim = some r → r.victims.Nodup → s.alloc.earmark ≤ r.shortfall → t.alloc.reclaim ≠ none →
        let cut := fun (k : Slot) => (s.policyOf k).cls = .deferrable ∧ (s.leaseOf k).any Lease.lowering = true
        t.alloc.reclaim = some { r with victims := r.victims.filter (fun k => decide (¬ cut k)) } ∧
        t.alloc.earmark = min r.shortfall (s.alloc.earmark +
          ((allSlots.filter (fun k => decide (k ∈ r.victims ∧ cut k))).map (fun k => s.commitment k - s.floorOf k)).sum)) ∧
      (s.alloc.reclaim = none → s.alloc.state ≠ .shedding →
        ((allSlots.filter (fun k => decide ((s.policyOf k).cls = .deferrable) && (s.leaseOf k).isSome)).foldl
          (fun q k => q.take .cut (some k) .sag false (s.grantedTier k))
          (s.notices.take .sagBegin none .sag false bulk)).records <+: t.notices.records)

/-- SAG_END (R139, R19): the condition and the ramp hold are cleared, and from SAG_HOLD the Allocator runs again. That it changes
nothing outside HOLDOFF, where no hold-off timer runs, is the model's choice (log entry 4). -/
def Obligations.TheEndOfASagResumesGrants : Prop :=
  ∀ s : State, s.store.startDone = true →
    (s.mon.sag ≠ .holdoff → exec .sagEnd s = .next s) ∧
    (s.mon.sag = .holdoff → exec .sagEnd s = .next (State.finish { s with
      mon := { s.mon with sag := .normal, low := 0, holdoff := 0 }
      notices := s.notices.take .sagEnd none .sag false s.mon.bulk
      alloc := { s.alloc with
        sagCondition := false
        state := if s.alloc.state = .sagHold then .running else s.alloc.state
        passDue := s.alloc.passDue || decide (s.alloc.state = .sagHold) }
      power := { s.power with hold := false } }))

/-- RECALL_DEADLINE (R51, R52, R53, R54): judged on the latest sample. The silent module keeps its lease at the target; a target
of 0 and a module still drawing lose it, and the latter its admit flag. With the victim mark the fall goes to the earmark up to
the shortfall and the slot leaves the victim set; without it reclaim and earmark stand (R6, R60). That is said of the silent
module by `State.Credits`, and of the two drops by `State.Settles`, whose fall is the whole commitment above the floor; where the
dropped slot's own entry is the beneficiary's and leaves, the reclaim is abandoned (R63). Every end brings a pass (R18 step 5).
That the event changes nothing on a slot without a LOWER is the model's choice (log entry 4). -/
def Obligations.ADeadlineEndsTheRecall : Prop :=
  ∀ (k : Slot) (s : State), s.store.startDone = true →
    ((∀ l target draw origin left, s.leaseOf k = some l → l.trans ≠ some (.lower target draw origin left)) →
      exec (.recallDeadline k) s = .next s) ∧
    (∀ l target draw origin left, s.leaseOf k = some l → l.trans = some (.lower target draw origin left) →
      ∃ u : State, exec (.recallDeadline k) s = .next u.finish ∧ s.HostSame u ∧ s.OthersSame u k ∧ u.raised = s.raised ∧
        ((s.monOf k).power ≤ draw + s.settings.overdrawMargin → 1 ≤ target →
          u.leaseOf k = some { l with tier := target, draw := draw, trans := none } ∧ u.alloc.passDue = true ∧
          u.alloc.committed = s.alloc.committed + max (s.floorOf k) draw - s.commitment k ∧
          u.sess = s.sess ∧ u.line = s.line ∧ u.power = s.power ∧ u.mon = s.mon ∧ u.entryOf k = s.entryOf k ∧
          u.notices = s.notices.take .recallSilent (some k) origin.reason false target ∧
          s.Credits u k (s.commitment k - max (s.floorOf k) draw)) ∧
        ((s.monOf k).power ≤ draw + s.settings.overdrawMargin → target = 0 →
          s.Settles u k (s.sessOf k).admitFlag (decide (origin = .shed))
            (s.notices.take .recallSilent (some k) origin.reason false 0) ∧
          ((s.policyOf k).enabled = true → (s.sessOf k).admitFlag = true → origin = .shed → s.Restored u k l.tier)) ∧
        (draw + s.settings.overdrawMargin < (s.monOf k).power →
          s.Settles u k false (decide (origin = .shed)) (s.notices.take .cut (some k) .recallTimeout false l.tier)) ∧
        (target = 0 ∨ draw + s.settings.overdrawMargin < (s.monOf k).power → (u.lineOf k).outRecall = none))

/-! ### The slot lines -/

/-- FRAME_SEND (R100, R104, R97): a pending frame whose message stands, and whose retries are not exhausted or whose link is LOST,
goes again with its bit; a replacement of its message, else the first of session, recall and claim, else what the poll timer asks
for, goes in a new frame with the opposite bit and the tag of the open session, or 0. A frame whose message was removed is given
up; one that waits with its retries exhausted gives way to the outbox, and goes again as the next PROBE (R107). The model's
choices: a frame that was chosen and never driven takes its bit when it is driven (log entry 23); with nothing to send the line
rests, its poll timer running where it polls (log entry 24); a waiting frame keeps its retry count, stays while nothing is sent,
and is the next POLL or PROBE only where that is its own message (log entry 53). -/
def Obligations.TheNextFrameIsChosenInOrder : Prop :=
  ∀ (k : Slot) (s : State) (e : Nat) (byPoll : Bool), s.store.startDone = true → (s.lineOf k).phase = .due e byPoll →
    let l := s.lineOf k
    let tag : Byte := if (s.sessOf k).state.isOpen = true then (s.sessOf k).tag else 0
    let goes := fun (f : Frame) (retries : Nat) => Host.Outcome.next (φ := Fault) (ρ := Refusal) { s with
      line := s.line.set k { l with
        pendingFrame := some ⟨f, .stands, true⟩, retries := retries, seq := f.seq, poll := none
        phase := .awaiting f 0, wire := f.bytes } }
    let new := fun (m : DownMsg) (c : Option Channel) => goes ⟨m, tag, !l.seq, c⟩ 0
    let empty := l.outSession = none ∧ l.outRecall = none ∧ l.outClaim = none
    let again := fun (f : Frame) (b : Bool) => l.pendingFrame = some ⟨f, .stands, b⟩ ∨
      (l.pendingFrame = some ⟨f, .waits, b⟩ ∧ (l.lost = true ∨
        (empty ∧ byPoll = true ∧
          (((s.sessOf k).state = .listening ∧ f.msg = .probe) ∨ ((s.sessOf k).state.isOpen = true ∧ f.msg = .poll)))))
    let waits := fun (m : DownMsg) => ∃ f b, l.pendingFrame = some ⟨f, .waits, b⟩ ∧ f.msg = m
    (∀ f, again f true → f.seq = l.seq → exec (.frameSend k) s = goes f l.retries) ∧
    (∀ f, again f false → exec (.frameSend k) s = goes { f with seq := !l.seq } l.retries) ∧
    (∀ f b c m, l.pendingFrame = some ⟨f, .replaced, b⟩ → f.chan = some c → l.chan c = some m →
      exec (.frameSend k) s = new m (some c)) ∧
    ((l.pendingFrame = none ∨ (∃ f b, l.pendingFrame = some ⟨f, .removed, b⟩) ∨
        (∃ f b, l.pendingFrame = some ⟨f, .replaced, b⟩ ∧ ∀ c, f.chan = some c → l.chan c = none) ∨
        (l.lost = false ∧ ∃ m, waits m)) →
      (∀ m, l.outSession = some m → exec (.frameSend k) s = new m (some .session)) ∧
      (∀ m, l.outSession = none → l.outRecall = some m → exec (.frameSend k) s = new m (some .recall)) ∧
      (∀ m, l.outSession = none → l.outRecall = none → l.outClaim = some m → exec (.frameSend k) s = new m (some .claim)) ∧
      (l.outSession = none → l.outRecall = none → l.outClaim = none →
        (byPoll = true → (s.sessOf k).state.isOpen = true → ¬ waits .poll → exec (.frameSend k) s = new .poll none) ∧
        (byPoll = true → (s.sessOf k).state = .listening → ¬ waits .probe → exec (.frameSend k) s = new .probe none) ∧
        (byPoll = false ∨ (s.sessOf k).state.polls = false → ∃ p, exec (.frameSend k) s = .next { s with
          line := s.line.set k { l with
            phase := .idle, poll := p
            pendingFrame := match l.pendingFrame with
              | some ⟨f, .waits, b⟩ => some ⟨f, .waits, b⟩
              | _ => none } } ∧
          p = if (s.sessOf k).state.polls = true ∧ l.poll = none then some s.settings.pollPeriod else l.poll)))

/-- A failed attempt, here judged by RESPONSE_TIMEOUT or by a RESPONSE_COMPLETE that fails a check (R101, R107, R108, R109, R102):
the first check that fails gives the kind, its counter rises, up to 255, then the frame is retried, or its retries are
exhausted by session state, in LISTENING with the frame waiting for the poll timer; a frame whose message was removed is given up,
with no retry. The poll timer starts where the outbox is left empty. Nothing else moves. That an attempt whose frame a session end
has given up is counted and not retried is the model's choice (log entry 22); when a response with a length field of 22 to 31 is
judged is too (log entry 46). -/
def Obligations.AFailedAttemptIsRetriedOrGivenUp : Prop :=
  ∀ (k : Slot) (s : State) (f : Frame) (e : Nat) (c : Instr) (kind : FailKind), s.store.startDone = true →
    ((s.lineOf k).phase = .awaiting f e ∨ (s.lineOf k).phase = .receiving f e) →
    ((c = .responseTimeout k ∧ kind = .noResponse) ∨
      ∃ bytes low, c = .responseComplete k bytes low ∧ f.ResponseFails bytes low kind) →
    let n := (s.lineOf k).counters
    let l : Line := { s.lineOf k with counters := match kind with
      | .noResponse => { n with noResponse := min 255 (n.noResponse + 1) }
      | .badFormat => { n with badFormat := min 255 (n.badFormat + 1) }
      | .badCrc => { n with badCrc := min 255 (n.badCrc + 1) }
      | .badKind => { n with badKind := min 255 (n.badKind + 1) }
      | .badTag => { n with badTag := min 255 (n.badTag + 1) }
      | .badEcho => { n with badEcho := min 255 (n.badEcho + 1) } }
    let answers := fun (x : Line) => exec c s = .next { s with line := s.line.set k x }
    let empty := l.outSession = none ∧ l.outRecall = none ∧ l.outClaim = none
    let polls := (s.sessOf k).state.polls = true
    let goesOn := fun (x : Line) =>
      (empty → polls → answers { x with phase := .idle, poll := some s.settings.pollPeriod }) ∧
      (empty → ¬ polls → answers { x with phase := .idle }) ∧
      (¬ empty → x.lost = false → answers { x with phase := .due 0 false, poll := none }) ∧
      (¬ empty → x.lost = true → answers { x with phase := .idle })
    (l.pendingFrame = none → goesOn l) ∧
    ((l.pendingFrame).isSome = true →
      (l.lost = true → answers { l with phase := .idle, poll := some s.settings.pollPeriod }) ∧
      (∀ fr b, l.lost = false → l.retries < s.settings.lineRetries → l.pendingFrame = some ⟨fr, .removed, b⟩ →
        goesOn { l with pendingFrame := none }) ∧
      (l.lost = false → l.retries < s.settings.lineRetries → (∀ fr b, l.pendingFrame ≠ some ⟨fr, .removed, b⟩) →
        (empty → polls → answers { l with
          retries := l.retries + 1, phase := .due 0 false, poll := some s.settings.pollPeriod }) ∧
        (¬ empty ∨ ¬ polls → answers { l with retries := l.retries + 1, phase := .due 0 false })) ∧
      (l.lost = false → s.settings.lineRetries ≤ l.retries →
        ((s.sessOf k).state.isOpen = true → exec c s = .next { s with
          line := s.line.set k { l with
            lost := true, phase := .idle, grace := some (s.settings.linkGrace * 10), poll := some s.settings.pollPeriod }
          notices := s.notices.take .linkLost (some k) .none false (s.sessOf k).tag.toNat }) ∧
        ((s.sessOf k).state = .listening → ∀ fr w b, l.pendingFrame = some ⟨fr, w, b⟩ →
          goesOn { l with pendingFrame := some ⟨fr, if w = .stands then .waits else w, b⟩ }) ∧
        ((s.sessOf k).state = .rejected ∨ (s.sessOf k).state = .faulted →
          answers { l with outSession := none, pendingFrame := none, retries := 0, phase := .idle })))

/-- LINE_GAP_TIMEOUT (R96, R107): the frame that was due is not driven, whichever the choice of R100 gives, and the attempt is
judged as a NO_RESPONSE of that frame. The model's choices: the held sequence bit stays and a new frame counts as not sent
(log entry 23), with nothing to send no attempt fails (log entry 24), and what a waiting frame keeps (log entry 53). -/
def Obligations.AMissedGapIsAFailedAttempt : Prop :=
  ∀ (k : Slot) (s : State) (e : Nat) (byPoll : Bool), s.store.startDone = true → (s.lineOf k).phase = .due e byPoll →
    let l := s.lineOf k
    let fails := fun (p : PendingFrame) (retries : Nat) => ∃ t : State, exec (.lineGapTimeout k) s = .next t ∧
      exec (.responseTimeout k) { s with line := s.line.set k { l with
        pendingFrame := some p, retries := retries, poll := none, phase := .awaiting p.frame 0 } } = .next t ∧
      (t.lineOf k).counters.noResponse = min 255 (l.counters.noResponse + 1) ∧
      (t.lineOf k).wire = l.wire ∧ (t.lineOf k).seq = l.seq
    let new := fun (m : DownMsg) (c : Option Channel) => ∃ f : Frame,
      f.msg = m ∧ f.tag = (if (s.sessOf k).state.isOpen = true then (s.sessOf k).tag else 0) ∧ f.chan = c ∧
        fails ⟨f, .stands, false⟩ 0
    let empty := l.outSession = none ∧ l.outRecall = none ∧ l.outClaim = none
    let waits := fun (m : DownMsg) => ∃ f b, l.pendingFrame = some ⟨f, .waits, b⟩ ∧ f.msg = m
    let again := fun (f : Frame) (b : Bool) => l.pendingFrame = some ⟨f, .stands, b⟩ ∨
      (l.pendingFrame = some ⟨f, .waits, b⟩ ∧ (l.lost = true ∨
        (empty ∧ byPoll = true ∧
          (((s.sessOf k).state = .listening ∧ f.msg = .probe) ∨ ((s.sessOf k).state.isOpen = true ∧ f.msg = .poll)))))
    (∀ f b, again f b → fails ⟨f, .stands, b⟩ l.retries) ∧
    (∀ f b c m, l.pendingFrame = some ⟨f, .replaced, b⟩ → f.chan = some c → l.chan c = some m → new m (some c)) ∧
    ((l.pendingFrame = none ∨ (∃ f b, l.pendingFrame = some ⟨f, .removed, b⟩) ∨
        (∃ f b, l.pendingFrame = some ⟨f, .replaced, b⟩ ∧ ∀ c, f.chan = some c → l.chan c = none) ∨
        (l.lost = false ∧ ∃ m, waits m)) →
      (∀ m, l.outSession = some m → new m (some .session)) ∧
      (∀ m, l.outSession = none → l.outRecall = some m → new m (some .recall)) ∧
      (∀ m, l.outSession = none → l.outRecall = none → l.outClaim = some m → new m (some .claim)) ∧
      (l.outSession = none → l.outRecall = none → l.outClaim = none →
        (byPoll = true → (s.sessOf k).state.isOpen = true → ¬ waits .poll → new .poll none) ∧
        (byPoll = true → (s.sessOf k).state = .listening → ¬ waits .probe → new .probe none) ∧
        (byPoll = false ∨ (s.sessOf k).state.polls = false →
          ∃ p, exec (.lineGapTimeout k) s = .next { s with
            line := s.line.set k { l with
              phase := .idle, poll := p
              pendingFrame := match l.pendingFrame with
                | some ⟨f, .waits, b⟩ => some ⟨f, .waits, b⟩
                | _ => none } })))

/-- RESPONSE_COMPLETE with the bytes a module sends for message `m` (R101, R103, R15, R111): the answered message leaves its
channel where it still stands, a GRANT delivered so completes its RAISE, and `m` is presented with the frame's tag. On a LOST
link recovery comes first, with the pass it may bring. -/
def Obligations.AValidResponseDeliversAndHandsOn : Prop :=
  ∀ (k : Slot) (s : State) (f : Frame) (e : Nat) (m : UpMsg) (g : Byte), s.store.startDone = true → s.Settled →
    ((s.lineOf k).phase = .awaiting f e ∨ (s.lineOf k).phase = .receiving f e) →
    (g = f.tag ∨ (g = 0 ∧ m.kindCode = 0x41)) →
    (∀ kind serial flags pref draws, m = .hello kind serial flags pref draws → draws.length ≤ 6) →
    let l := s.lineOf k
    let c : Instr := .responseComplete k (m.bytes g f.seq) false
    (l.lost = true → exec c s = exec c (State.finish { s with
      line := s.line.set k { l with lost := false, grace := none }
      notices := s.notices.take .linkBack (some k) .none false (s.sessOf k).tag.toNat
      alloc := { s.alloc with passDue := (s.entryOf k).isSome } })) ∧
    (l.lost = false → ∃ x : Line,
      (x.pendingFrame = none ∧ x.retries = 0 ∧ x.seq = l.seq ∧ x.counters = l.counters ∧ x.lost = false ∧
        (∀ ch, (∃ fr b, l.pendingFrame = some ⟨fr, .stands, b⟩ ∧ fr.chan = some ch) → x.chan ch = none) ∧
        (∀ ch, (∀ fr b, l.pendingFrame = some ⟨fr, .stands, b⟩ → fr.chan ≠ some ch) → x.chan ch = l.chan ch) ∧
        ((∀ ch, x.chan ch = none) → (s.sessOf k).state.polls = true →
          x.phase = .idle ∧ x.poll = some s.settings.pollPeriod) ∧
        (∀ ch, x.chan ch ≠ none → x.phase = .due 0 false ∧ x.poll = none)) ∧
      ((∀ fr b t short y up d o, l.pendingFrame = some ⟨fr, .stands, b⟩ → f.msg = .grant t short → s.leaseOf k = some y →
          y.trans = some (.raise up d o) → y.tag ≠ f.tag) →
        exec c s = .next { s with line := s.line.set k x, raised := s.raised ++ [m.happening k f.tag] }) ∧
      (∀ fr b t short y up d o, l.pendingFrame = some ⟨fr, .stands, b⟩ → f.msg = .grant t short → s.leaseOf k = some y →
        y.trans = some (.raise up d o) → y.tag = f.tag → y.draw ≤ d →
        exec c s = .next { s with
          line := s.line.set k x
          alloc := { s.alloc with
            leases := s.alloc.leases.set k (some { y with tier := up, draw := d, short := short, trans := none }) }
          raised := s.raised ++ [m.happening k f.tag] }))

/-- POLL_TIMER (R102, R109) and RESPONSE_BEGIN (R95): only the line's own timers move, and a slot that polls nothing stays silent.
What a poll timer does while a frame is due or in flight, that a timer which does not run makes nothing due, and that a response
begins only where one is awaited, are the model's choices (log entries 2 and 4). -/
def Obligations.ThePollTimerMakesAFrameDue : Prop :=
  ∀ (k : Slot) (s : State), s.store.startDone = true →
    let l := s.lineOf k
    (l.poll = none → exec (.pollTimer k) s = .next s) ∧
    (∀ n, l.poll = some n → exec (.pollTimer k) s = .next { s with
      line := s.line.set k { l with poll := none, phase := match l.phase with
        | .idle => if (s.sessOf k).state.polls = true then .due 0 true else .idle
        | .due e _ => .due e true
        | .awaiting f e => .awaiting f e
        | .receiving f e => .receiving f e } }) ∧
    (∀ f e, l.phase = .awaiting f e → exec (.responseBegin k) s = .next { s with
      line := s.line.set k { l with phase := .receiving f e } }) ∧
    ((∀ f e, l.phase ≠ .awaiting f e) → exec (.responseBegin k) s = .next s)

/-- LINK_GRACE_EXPIRY (R89, R110), in the state it finds: CUT only where the gate was on, no SEVER, the link UP, and the slot
LISTENING if enabled, with its poll timer started (R102), and BARRED if not. The model's choices: the event changes nothing on
an UP link, where no grace timer runs (log entry 4), and a drop that frees nothing brings no pass (log entry 44). What the drop
does to a reclaim is as R60 and R63 have it. -/
def Obligations.LinkGraceEndsTheSession : Prop :=
  ∀ (k : Slot) (s : State), s.store.startDone = true →
    let after : SessState := if (s.policyOf k).enabled = true then .listening else .barred
    let polls := fun (u : State) => (u.lineOf k).poll = if (s.policyOf k).enabled = true then some s.settings.pollPeriod else none
    ((s.lineOf k).lost = false → exec (.linkGraceExpiry k) s = .next s) ∧
    ((s.lineOf k).lost = true → ((s.sessOf k).state = .on ∨ (s.sessOf k).state = .ramping) → (s.leaseOf k).isSome = true →
      ∃ u : State, exec (.linkGraceExpiry k) s = .next u.finish ∧ s.SessionEnded u k .linkTimeout after ∧ polls u ∧
        s.PassDueBy u (s.DropCalls k ∨ (s.entryOf k).isSome = true) ∧ s.LeaseGone u k ∧
        s.HostSame u ∧ s.OthersSame u k ∧ u.raised = s.raised ∧
        (s.alloc.reclaim = none → u.notices = (s.notices.take .cut (some k) .linkTimeout false (s.grantedTier k)).take
          .sessionClosed (some k) .linkTimeout false (s.sessOf k).tag.toNat)) ∧
    ((s.lineOf k).lost = true → (s.sessOf k).state = .rampWait → (s.leaseOf k).isSome = true →
      ∃ u : State, exec (.linkGraceExpiry k) s = .next u.finish ∧ s.SessionEnded u k .linkTimeout after ∧ polls u ∧
        s.PassDueBy u (s.DropCalls k ∨ (s.entryOf k).isSome = true) ∧ s.LeaseGone u k ∧
        s.HostSame u ∧ s.OthersSame u k ∧ u.raised = s.raised ∧
        (s.alloc.reclaim = none → u.notices =
          s.notices.take .sessionClosed (some k) .linkTimeout false (s.sessOf k).tag.toNat)) ∧
    ((s.lineOf k).lost = true → (s.sessOf k).state = .standby → s.leaseOf k = none →
      ∃ u : State, exec (.linkGraceExpiry k) s = .next u.finish ∧ s.SessionEnded u k .linkTimeout after ∧ polls u ∧
        s.PassDueBy u (s.DropCalls k ∨ (s.entryOf k).isSome = true) ∧
        s.HostSame u ∧ s.OthersSame u k ∧ u.raised = s.raised ∧ u.power.queue = s.power.queue ∧
        u.power.holder = s.power.holder ∧
        (s.alloc.reclaim = none → u.notices =
          s.notices.take .sessionClosed (some k) .linkTimeout false (s.sessOf k).tag.toNat))

/-! ### The module's messages -/

/-- HELLO on an enabled LISTENING slot that passes both checks (R80, R32): a new tag that wraps from 255 to 1, WELCOME, STANDBY, and
the admit flag of the start mode; on an AUTO slot a BRINGUP entry joins, or is denied where check 5 or 6 fails. -/
def Obligations.AGoodHelloOpensASession : Prop :=
  ∀ (k : Slot) (g : Byte) (d : Descriptor) (s : State), s.store.startDone = true → (s.sessOf k).state = .listening →
    (s.policyOf k).enabled = true → s.leaseOf k = none → s.entryOf k = none →
    d.listOk = true → d.drawOf 1 ≤ (s.policyOf k).cap →
    let c : Instr := .hello k g d.kind d.serial d.flags d.preferred d.draws
    let tag : Byte := if (s.sessOf k).tag = 255 then 1 else (s.sessOf k).tag + 1
    let auto := decide ((s.policyOf k).startMode = .auto)
    let opened := s.notices.take .sessionOpen (some k) (if auto = true then .bringup else .none) false tag.toNat
    let least := max (s.floorOf k) (d.drawOf 1)
    ∃ u : State, exec c s = .next u.finish ∧ u.raised = s.raised.erase c ∧ s.HostSame u ∧ s.OthersSame u k ∧
      u.sessOf k = { s.sessOf k with state := .standby, tag := tag, admitFlag := auto, desc := some d, lastEnd := .none } ∧
      (u.lineOf k).outSession = some (.welcome tag) ∧ (u.lineOf k).outRecall = (s.lineOf k).outRecall ∧
      (u.rampOf k).aux = true ∧ u.alloc.leases = s.alloc.leases ∧ u.alloc.committed = s.alloc.committed ∧
      (auto = false → u.alloc = s.alloc ∧ u.notices = opened ∧ (u.lineOf k).outClaim = (s.lineOf k).outClaim) ∧
      (auto = true → least + s.floorSum ≤ s.available + s.floorOf k →
        ∃ pos, s.Joined u ⟨k, tag, .bringup, if d.preferred = 0 then d.draws.length else d.preferred.toNat, 1,
            (s.policyOf k).cls, (s.policyOf k).rank, 0⟩ pos ∧
          u.notices = opened.take .queued (some k) .bringup false pos) ∧
      (auto = true → s.available + s.floorOf k < least + s.floorSum →
        u.alloc.queue = s.alloc.queue ∧ (u.lineOf k).outClaim = claimAfter (s.lineOf k).outClaim (.deny .neverFits) ∧
        u.notices = opened.take .denied (some k) .neverFits false
          (if d.preferred = 0 then d.draws.length else d.preferred.toNat))

/-- HELLO on a LISTENING slot that fails a check (R78): BAD_LIST before OVER_CAP, REFUSE queued, REJECTED with the descriptor as
received, no tag given and no budget moved. -/
def Obligations.ABadHelloIsRefused : Prop :=
  ∀ (k : Slot) (g : Byte) (kind : Word) (serial : BitVec 32) (flags pref : Byte) (draws : List Word) (s : State) (r : Reason),
    s.store.startDone = true → (s.sessOf k).state = .listening →
    (if ¬ (1 ≤ draws.length ∧ draws.length ≤ 6) ∨ (∃ w ∈ draws, ¬ (1 ≤ w.toNat ∧ w.toNat ≤ 4095)) ∨
        ¬ draws.Pairwise (fun a b => a.toNat < b.toNat) ∨ draws.length < pref.toNat ∨ flags ≠ 0 then r = .badList
      else (∃ w, draws.head? = some w ∧ (s.policyOf k).cap < w.toNat) ∧ r = .overCap) →
    let c : Instr := .hello k g kind serial flags pref draws
    ∃ u : State, exec c s = .next u.finish ∧ u.raised = s.raised.erase c ∧ s.HostSame u ∧ s.OthersSame u k ∧ u.alloc = s.alloc ∧
      u.mon = s.mon ∧ u.power.queue = s.power.queue ∧ u.power.holder = s.power.holder ∧
      u.sessOf k = { s.sessOf k with state := .rejected, refusal := r, desc := some ⟨kind, serial, flags, pref, draws⟩ } ∧
      (u.lineOf k).outSession = some (.refuse r) ∧ (u.lineOf k).poll = none ∧ (u.rampOf k).aux = true ∧
      u.notices = s.notices.take .sessionRefused (some k) r false kind.toNat

/-- HELLO in an open session (R87): the old session ends with cause MODULE_RESTART and no SEVER, with CUT where the gate was on,
and the HELLO is then taken as in LISTENING. That a drop which frees nothing brings no pass is the model's choice (log entry
44). What the drop does to a reclaim is as R60 and R63 have it. -/
def Obligations.ARestartHelloEndsTheOldSession : Prop :=
  ∀ (k : Slot) (g : Byte) (kind : Word) (serial : BitVec 32) (flags pref : Byte) (draws : List Word) (s : State),
    s.store.startDone = true → (s.sessOf k).state.isOpen = true →
    let c : Instr := .hello k g kind serial flags pref draws
    ∃ v : State, exec c s = exec c v ∧ s.SessionEnded v k .moduleRestart .listening ∧
      ((s.leaseOf k).isSome = true → s.LeaseGone v k) ∧ (v.lineOf k).outSession = none ∧
      s.PassDueBy v (s.DropCalls k ∨ (s.entryOf k).isSome = true) ∧ s.HostSame v ∧ s.OthersSame v k ∧ v.raised = s.raised ∧
      (s.alloc.reclaim = none → v.notices = (if (s.rampOf k).gate = true then
          s.notices.take .cut (some k) .moduleRestart false (s.grantedTier k) else s.notices).take
        .sessionClosed (some k) .moduleRestart false (s.sessOf k).tag.toNat)

/-- CLAIM that fails an admission check (R26, R27, R29, R35): the first failing check gives the reason of DENY and DENIED, the
slot's older entry is gone, and a beneficiary's reclaim is abandoned. The model's choices: DENIED of a failed replacement carries
the new claim's wanted tier (log entry 18), and RECLAIM_END follows it (log entry 17). -/
def Obligations.AClaimThatFailsACheckIsDenied : Prop :=
  ∀ (k : Slot) (g wanted least : Byte) (s : State) (r : Reason), s.store.startDone = true →
    ((s.sessOf k).state = .standby ∨ (s.sessOf k).state = .on) → g = (s.sessOf k).tag →
    s.ClaimFails k wanted.toNat least.toNat r →
    ∃ u : State, exec (.claim k g wanted least) s = .next u.finish ∧ u.raised = s.raised.erase (.claim k g wanted least) ∧
      s.HostSame u ∧ s.OthersSame u k ∧ u.entryOf k = none ∧ u.sess = s.sess ∧ u.alloc.leases = s.alloc.leases ∧
      u.alloc.committed = s.alloc.committed ∧ u.power = s.power ∧ u.mon = s.mon ∧
      (u.lineOf k).outClaim = claimAfter (s.lineOf k).outClaim (.deny r) ∧
      s.PassDueBy u ((s.entryOf k).isSome = true) ∧
      ((s.entryOf k).isSome = true → s.isBeneficiary k = true → u.alloc.reclaim = none ∧ u.alloc.earmark = 0 ∧
        u.notices = (s.notices.take .denied (some k) r false wanted.toNat).take .reclaimEnd (some k) .preempt false 2) ∧
      (s.entryOf k = none ∨ s.isBeneficiary k = false → u.alloc.reclaim = s.alloc.reclaim ∧
        u.alloc.earmark = s.alloc.earmark ∧ u.notices = s.notices.take .denied (some k) r false wanted.toNat)

/-- CLAIM that passes the checks (R26, R29, R31): it joins as a new entry or takes its tiers in the place of the slot's entry,
QUEUED is posted, and after the pass a claim still waiting is answered HOLD with its position. An upward replacement of the
beneficiary abandons its reclaim; a downward one lowers S, and the earmark with it. That RECLAIM_END follows QUEUED is the
model's choice (log entry 17), and so is the new shortfall where a LOWER is in flight and the new wanted tier is not above the
granted one (log entry 50). -/
def Obligations.AClaimThatPassesWaitsInOrder : Prop :=
  ∀ (k : Slot) (g wanted least : Byte) (s : State), s.store.startDone = true →
    ((s.sessOf k).state = .standby ∨ (s.sessOf k).state = .on) → g = (s.sessOf k).tag →
    (∀ r, ¬ s.ClaimFails k wanted.toNat least.toNat r) →
    ∃ u t : State, exec (.claim k g wanted least) s = .next t ∧ u.raised = s.raised.erase (.claim k g wanted least) ∧
      s.HostSame u ∧ s.OthersSame u k ∧ u.sess = s.sess ∧ u.line = s.line ∧ u.alloc.leases = s.alloc.leases ∧
      u.alloc.committed = s.alloc.committed ∧ u.power = s.power ∧ u.mon = s.mon ∧
      (u.finish.entryOf k = none → t = u.finish) ∧
      (∀ ahead e behind, u.finish.alloc.queue = ahead ++ e :: behind → e.slot = k → (∀ x ∈ ahead, x.slot ≠ k) →
        t = { u.finish with line := t.line } ∧ (∀ j, j ≠ k → t.lineOf j = u.finish.lineOf j) ∧
        (t.lineOf k).outClaim = claimAfter (u.finish.lineOf k).outClaim (.hold ahead.length)) ∧
      (s.entryOf k = none →
        ∃ pos, s.Joined u ⟨k, g, .claim, wanted.toNat, least.toNat, (s.policyOf k).cls, (s.policyOf k).rank, 0⟩ pos ∧
          u.notices = s.notices.take .queued (some k) .claim false pos ∧ u.alloc.reclaim = s.alloc.reclaim ∧
          u.alloc.earmark = s.alloc.earmark) ∧
      (∀ ahead e behind, s.alloc.queue = ahead ++ e :: behind → e.slot = k → (∀ x ∈ ahead, x.slot ≠ k) →
        (∀ x ∈ behind, x.slot ≠ k) →
        let e' : Entry := { e with origin := .claim, wanted := wanted.toNat, least := least.toNat }
        let queued := s.notices.take .queued (some k) .claim false ahead.length
        u.alloc.queue = ahead ++ e' :: behind ∧ u.alloc.passDue = true ∧
        (s.isBeneficiary k = false → u.alloc.reclaim = s.alloc.reclaim ∧ u.alloc.earmark = s.alloc.earmark ∧
          u.notices = queued) ∧
        (s.isBeneficiary k = true → e.wanted < wanted.toNat → u.alloc.reclaim = none ∧ u.alloc.earmark = 0 ∧
          u.notices = queued.take .reclaimEnd (some k) .preempt false 2) ∧
        (∀ rec, s.alloc.reclaim = some rec → rec.slot = k → wanted.toNat ≤ e.wanted → u.notices = queued ∧
          ∃ n : Nat, u.alloc.reclaim = some { rec with shortfall := n } ∧ u.alloc.earmark = min s.alloc.earmark n ∧
            (let lowest := match s.leaseOf k with
              | none => least.toNat
              | some l => max least.toNat (l.tier + 1)
             let short : Int := (max (s.floorOf k) (s.drawOf k lowest) : Nat) - (s.commitment k : Int) - s.free
             (n : Int) = max 1 (min (rec.shortfall : Int) short))))

/-- READY and YIELD on a lease with a LOWER in flight (R50, R53, R54): at or below the target they end it, above it they are
ignored. A marked LOWER's fall goes to the earmark up to the shortfall and the slot leaves the victim set, also where the answer
drops the lease (`State.Settles`); without the mark reclaim and earmark stand (R60). Every end brings a pass (R18 step 5). -/
def Obligations.AnAnswerEndsTheRecall : Prop :=
  ∀ (k : Slot) (g v : Byte) (s : State) (c : Instr) (l : Lease) (target draw : Nat) (origin : RecallOrigin) (left : Nat),
    s.store.startDone = true → (c = .yieldTier k g v ∨ c = .ready k g v) → (s.sessOf k).state = .on →
    g = (s.sessOf k).tag → s.leaseOf k = some l → l.tag = g → l.trans = some (.lower target draw origin left) →
    ∃ u : State, exec c s = .next u.finish ∧ u.raised = s.raised.erase c ∧ s.HostSame u ∧ s.OthersSame u k ∧
      (target < v.toNat → u = { s with raised := s.raised.erase c }) ∧
      (v.toNat ≤ target → 1 ≤ v.toNat →
        u.leaseOf k = some { l with tier := v.toNat, draw := s.drawOf k v.toNat, trans := none } ∧ u.alloc.passDue = true ∧
        u.alloc.committed = s.alloc.committed + max (s.floorOf k) (s.drawOf k v.toNat) - s.commitment k ∧
        s.Credits u k (s.commitment k - max (s.floorOf k) (s.drawOf k v.toNat)) ∧
        u.sess = s.sess ∧ u.power = s.power ∧ u.mon = s.mon ∧ u.entryOf k = s.entryOf k ∧ (u.lineOf k).outRecall = none ∧
        (u.lineOf k).outClaim = (s.lineOf k).outClaim ∧
        u.notices = s.notices.take .recallDone (some k) origin.reason false v.toNat) ∧
      (v.toNat ≤ target → v.toNat = 0 → (u.lineOf k).outRecall = none ∧
        s.Settles u k (s.sessOf k).admitFlag (decide (origin = .shed))
          (s.notices.take .recallDone (some k) origin.reason false 0) ∧
        ((s.policyOf k).enabled = true → (s.sessOf k).admitFlag = true → origin = .shed → s.Restored u k l.tier))

/-- YIELD on a lease without a LOWER (R85, R16): a RAISE is cancelled first; a tier below the granted one is taken at once, tier 0
drops the lease, any other is ignored. READY without a LOWER is ignored (R50). What it hands back goes to free, and reclaim and
earmark stand (R60). A fall of committed brings a pass; that a YIELD(0) which frees nothing brings none is the model's choice (log
entry 44). -/
def Obligations.AYieldHandsPowerBack : Prop :=
  ∀ (k : Slot) (g v : Byte) (s : State) (l : Lease), s.store.startDone = true → (s.sessOf k).state = .on →
    g = (s.sessOf k).tag → s.leaseOf k = some l → l.tag = g → (∀ t d o n, l.trans ≠ some (.lower t d o n)) →
    exec (.ready k g v) s = .next (State.finish { s with raised := s.raised.erase (.ready k g v) }) ∧
    ∃ u : State, exec (.yieldTier k g v) s = .next u.finish ∧ u.raised = s.raised.erase (.yieldTier k g v) ∧
      s.HostSame u ∧ s.OthersSame u k ∧
      (1 ≤ v.toNat → s.ReclaimSame u) ∧
      (l.tier ≤ v.toNat → s.RecallNotIssued u k ∧ u.sess = s.sess ∧ u.power = s.power ∧ u.mon = s.mon ∧
        u.entryOf k = s.entryOf k) ∧
      (v.toNat < l.tier → 1 ≤ v.toNat →
        u.leaseOf k = some { l with tier := v.toNat, draw := s.drawOf k v.toNat, trans := none } ∧
        (s.commitment k ≤ s.alloc.committed →
          u.alloc.committed = s.alloc.committed + max (s.floorOf k) (s.drawOf k v.toNat) - s.commitment k) ∧
        s.PassDueBy u (max (s.floorOf k) l.draw < s.commitment k ∨
          max (s.floorOf k) (s.drawOf k v.toNat) < max (s.floorOf k) l.draw) ∧
        u.sess = s.sess ∧ u.power = s.power ∧ u.mon = s.mon ∧ u.entryOf k = s.entryOf k ∧
        u.notices = s.notices.take .recallDone (some k) .yielded false v.toNat) ∧
      (v.toNat < l.tier → v.toNat = 0 →
        s.Settles u k (s.sessOf k).admitFlag false (s.notices.take .recallDone (some k) .yielded false 0))

/-- FAULT in ON (R86, R91): the lease is dropped whatever it carries and CUT carries the module's code; the fault is not
latched. A fall of committed brings a pass; that a drop which frees nothing brings none is the model's choice (log entry 44).
What the drop does to a reclaim is as R60 and R63 have it. -/
def Obligations.AModuleFaultDropsTheLease : Prop :=
  ∀ (k : Slot) (g code : Byte) (s : State) (l : Lease), s.store.startDone = true → (s.sessOf k).state = .on →
    g = (s.sessOf k).tag → s.leaseOf k = some l → l.tag = g →
    ∃ u : State, exec (.moduleFault k g code) s = .next u.finish ∧ u.raised = s.raised.erase (.moduleFault k g code) ∧
      s.HostSame u ∧ s.OthersSame u k ∧
      s.Settles u k (s.sessOf k).admitFlag false (s.notices.take .cut (some k) .moduleFault false code.toNat) ∧
      ((s.policyOf k).enabled = true → (u.sessOf k).lastEnd = .moduleFault)

/-- Which messages are ignored and which are counted (R83, R77, R81): a NONE never acts; a message of another tag is discarded
uncounted; HELLO in REJECTED and FAULTED, and CLAIM, YIELD, READY and FAULT outside STANDBY and ON, raise the protocol errors,
up to 255; YIELD, READY and FAULT in STANDBY are ignored uncounted. The model's choices: with no session open a message is
compared with tag 0 (log entry 37), and a message that finds its slot VACANT or BARRED does nothing (log entry 4). -/
def Obligations.MessagesOutOfPlaceAreIgnoredOrCounted : Prop :=
  ∀ (k : Slot) (g a b : Byte) (s : State) (c : Instr), s.store.startDone = true →
    let taken : State := { s with raised := s.raised.erase c }
    let counted : State := { taken with
      sess := s.sess.set k { s.sessOf k with protoErrors := min 255 ((s.sessOf k).protoErrors + 1) } }
    (c = .noneMessage k g → exec c s = .next taken) ∧
    ((c = .claim k g a b ∨ c = .yieldTier k g a ∨ c = .ready k g a ∨ c = .moduleFault k g a) →
      (g ≠ (if (s.sessOf k).state.isOpen = true then (s.sessOf k).tag else 0) → exec c s = .next taken) ∧
      (g = (if (s.sessOf k).state.isOpen = true then (s.sessOf k).tag else 0) →
        ((s.sessOf k).state = .vacant ∨ (s.sessOf k).state = .barred → exec c s = .next taken) ∧
        ((s.sessOf k).state = .standby → c ≠ .claim k g a b → exec c s = .next taken) ∧
        ((s.sessOf k).state = .listening ∨ (s.sessOf k).state = .rampWait ∨ (s.sessOf k).state = .ramping ∨
          (s.sessOf k).state = .rejected ∨ (s.sessOf k).state = .faulted → exec c s = .next counted))) ∧
    (∀ kind serial flags pref draws, c = .hello k g kind serial flags pref draws →
      ((s.sessOf k).state = .rejected ∨ (s.sessOf k).state = .faulted → exec c s = .next counted) ∧
      ((s.sessOf k).state = .vacant ∨ (s.sessOf k).state = .barred → exec c s = .next taken))

/-! ### The host's commands -/

/-- How a command is taken (R160, R154, R178): the address byte of a transaction gives its direction in bit 7 and its first address
in bits 6..0 (section 11.1); when CS_N rises at the end of the transaction that armed it, with the arguments as
they then stand, the armed command is taken; it is discarded with CMD_OVERRUN while BUSY; BAD_ARG for an unknown code and BAD_SLOT for a slot that is none. A word
that is not the next of the transaction in progress first ends that transaction, which is the model's choice (log entry 30). -/
def Obligations.ACommandIsTakenAtTheEndOfItsTransaction : Prop :=
  ∀ (s : State) (slot : Byte) (a b : Word) (reg : SettingReg) (addr : BitVec 7) (v v' : Bool), s.store.startDone = true →
    let h : HostPort := { s.host with burst := none, budget := none, noticePtr := 0, armed := false }
    let released : State := { s with host := h }
    let named : List Instr := [.applyPolicy slot, .admitSlot slot, .evict slot a, .setTier slot a, .clearFault slot, .rescan slot]
    let code := s.host.cmd.toNat / 256
    let field : Byte := s.host.cmd.extractLsb' 0 8
    (∀ byte : Byte, (Burst.opened byte).write = decide (128 ≤ byte.toNat) ∧ (Burst.opened byte).next.toNat = byte.toNat % 128) ∧
    (addressByte v addr).toNat = (if v = true then 128 else 0) + addr.toNat ∧
    (s.host.burst = none → s.reach v addr = { s with host := { s.host with burst := some (Burst.opened (addressByte v addr)) } }) ∧
    (s.host.armed = false → exec .transactionEnd s = .next released) ∧
    (s.host.armed = true →
      (∀ n c, (n, c) ∈ [(1, Instr.applyPolicy field), (2, .setBudget s.host.arg0 s.host.arg1), (3, .admitSlot field),
          (4, .evict field s.host.arg0), (5, .setTier field s.host.arg0), (6, .clearFault field), (7, .rescan field),
          (8, .storePolicy)] → code = n → exec .transactionEnd s = exec c released) ∧
      (code = 0 ∨ 8 < code → exec .transactionEnd s = .next (if s.store.state = .idle then released.answered .badArg
        else { released with host := { h with cmdOverrun := true } }))) ∧
    (s.store.state ≠ .idle → ∀ c, (c ∈ named ∨ c = .setBudget a b ∨ c = .storePolicy) →
      exec c s = .next { s with host := { s.host with cmdOverrun := true } }) ∧
    (s.store.state = .idle → 8 ≤ slot.toNat → ∀ c ∈ named, exec c s = .next (s.answered .badSlot)) ∧
    (∀ c write at', (c, write, at') ∈ [(Instr.settingWrite reg a, true, settingAddr reg), (.passLimitWrite a, true, 0x15),
        (.statusW1C a, true, 0x02), (.tableSelWrite a, true, 0x18), (.tableDataWrite a, true, 0x19), (.setBackfill v, true, 0x03),
        (.setPreempt v, true, 0x03), (.setIntEnables v v', true, 0x03), (.portReset, true, 0x03), (.registerWrite addr a, true, addr),
        (.tableDataRead, false, 0x19), (.noticeDataRead, false, 0x1A), (.budgetRegisterRead addr, false, addr)] →
      ¬ s.WordFits write at' → ∃ u : State, exec .transactionEnd s = .next u ∧ u.host.burst = none ∧ exec c s = exec c u)

/-- The checks of APPLY_POLICY (R161): every field in range, the floor law, then a rise of the slot's commitment within free and
outside SHEDDING. A record equal to the live one is taken with OK and does nothing. -/
def Obligations.ApplyPolicyIsCheckedFirst : Prop :=
  ∀ (slot : Byte) (k : Slot) (s : State), s.store.startDone = true → s.store.state = .idle → slot.toNat = k.val →
    let r := s.cmd.staging
    let floor := if r.enabled = true then r.floor else 0
    let rise : Int := (max floor (Lease.term (s.leaseOf k)) : Nat) - (s.commitment k : Int)
    let inRange := r.rank ≤ 7 ∧ r.floor ≤ 4095 ∧ 1 ≤ r.cap ∧ r.cap ≤ 4095 ∧ r.floor ≤ r.cap
    let fits := s.floorSum + floor ≤ s.available + s.floorOf k
    let mayRise := 0 < rise → rise ≤ s.free ∧ s.alloc.state ≠ .shedding
    (¬ inRange → exec (.applyPolicy slot) s = .next (s.answered .badArg)) ∧
    (inRange → ¬ fits → exec (.applyPolicy slot) s = .next (s.answered .floorConflict)) ∧
    (inRange → fits → ¬ mayRise → exec (.applyPolicy slot) s = .next (s.answered .budgetConflict)) ∧
    (inRange → fits → mayRise → r = s.policyOf k → exec (.applyPolicy slot) s = .next (s.answered .ok))

/-- An APPLY_POLICY that passes its checks and changes the record (R161, R90, R28, R46): the record is live, a change of enable
acts by session state, a cap below what the lease holds or is being raised to recalls it, on top of a LOWER in flight and after a
RAISE is cancelled (R47, R48), or drops it in a ramp phase (R49). Every entry left passes checks 5 and 6, and every entry that
passes them stays (R28), the slot's own where neither a disable nor a drop takes it; an entry whose class or rank changes takes the
new ones and stands behind the last entry of its new key or a higher one, and no other entry moves (R25). A changed class reaches
the ramp record and the Ramp Queue (R117), and a beneficiary made DEFERRABLE loses its reclaim (R63). That a ramp record in NONE
keeps its class is the model's choice (log entry 51). -/
def Obligations.ApplyPolicyActsOnTheSlot : Prop :=
  ∀ (slot : Byte) (k : Slot) (s : State), s.store.startDone = true → s.store.state = .idle → slot.toNat = k.val →
    let r := s.cmd.staging
    let old := s.policyOf k
    let floor := if r.enabled = true then r.floor else 0
    let rise : Int := (max floor (Lease.term (s.leaseOf k)) : Nat) - (s.commitment k : Int)
    r.rank ≤ 7 ∧ r.floor ≤ 4095 ∧ 1 ≤ r.cap ∧ r.cap ≤ 4095 ∧ r.floor ≤ r.cap → s.floorSum + floor ≤ s.available + s.floorOf k →
    (0 < rise → rise ≤ s.free ∧ s.alloc.state ≠ .shedding) → r ≠ old →
    ∃ u : State, exec (.applyPolicy slot) s = .next (u.finish.answered .ok) ∧
      u.cmd = { s.cmd with policy := s.cmd.policy.set k r } ∧ u.host = s.host ∧ u.store = s.store ∧ u.present = s.present ∧
      u.pending = s.pending ∧ u.raised = s.raised ∧
      (∀ j, j ≠ k → u.sessOf j = s.sessOf j ∧ u.leaseOf j = s.leaseOf j ∧ u.rampOf j = s.rampOf j ∧ u.monOf j = s.monOf j) ∧
      (∀ j e, u.entryOf j = some e → (∃ e', s.entryOf j = some e') ∧
        max (u.floorOf j) (u.drawOf j e.least) + u.floorSum ≤ u.available + u.floorOf j) ∧
      (∀ e, u.entryOf k = some e → u.drawOf k e.least ≤ r.cap ∧
        (r.cls ≠ old.cls ∨ r.rank ≠ old.rank → e.cls = r.cls ∧ e.rank = r.rank)) ∧
      (s.EntryLaw →
        let rekeyed := r.cls ≠ old.cls ∨ r.rank ≠ old.rank
        let keyed := fun (e : Entry) => if rekeyed then { e with cls := r.cls, rank := r.rank } else e
        let fits := fun (j : Slot) (e : Entry) =>
          max (u.floorOf j) (s.drawOf j e.least) + u.floorSum ≤ u.available + u.floorOf j
        (∀ j e, j ≠ k → s.entryOf j = some e → fits j e → u.entryOf j = some e) ∧
        (∀ e, s.entryOf k = some e → ¬ (old.enabled = true ∧ r.enabled = false) → (s.sessOf k).state ≠ .rampWait →
          (s.sessOf k).state ≠ .ramping → s.drawOf k e.least ≤ r.cap → fits k e → u.entryOf k = some (keyed e)) ∧
        (¬ rekeyed ∨ s.entryOf k = none →
          u.alloc.queue = s.alloc.queue.filter (fun x => (u.entryOf x.slot).isSome)) ∧
        (∀ e, rekeyed → s.entryOf k = some e → ∃ ahead behind,
          s.alloc.queue.filter (fun x => decide (x.slot ≠ k)) = ahead ++ behind ∧
          (∀ x ∈ behind, x.keyGe (keyed e) = false) ∧ (∀ x, ahead.getLast? = some x → x.keyGe (keyed e) = true) ∧
          u.alloc.queue = (ahead ++ keyed e :: behind).filter (fun x => (u.entryOf x.slot).isSome))) ∧
      (s.leaseOf k = none → u.leaseOf k = none ∧ u.alloc.committed = s.alloc.committed + floor - s.floorOf k) ∧
      (old.enabled = false → r.enabled = true → (s.sessOf k).state = .barred →
        (u.sessOf k).state = .listening ∧ (u.rampOf k).aux = true ∧ (u.lineOf k).poll = some s.settings.pollPeriod) ∧
      (old.enabled = true → r.enabled = false →
        ((s.sessOf k).state = .vacant ∨ (s.sessOf k).state = .faulted → u.sessOf k = s.sessOf k) ∧
        ((s.sessOf k).state = .listening ∨ (s.sessOf k).state = .rejected → (u.sessOf k).state = .barred ∧
          (u.lineOf k).outSession = none ∧ (u.rampOf k).aux = false) ∧
        ((s.sessOf k).state = .standby → s.leaseOf k = none →
          (u.sessOf k).state = .barred ∧ (u.sessOf k).lastEnd = .barred ∧ (u.sessOf k).desc = none ∧ u.entryOf k = none ∧
          (u.rampOf k).aux = false) ∧
        ((s.sessOf k).state = .rampWait ∨ (s.sessOf k).state = .ramping → (∃ l, s.leaseOf k = some l ∧ 1 ≤ l.tier) →
          u.leaseOf k = none ∧ u.entryOf k = none ∧ (u.sessOf k).state = .barred ∧ (u.rampOf k).gate = false ∧
          k ∉ u.power.queue ∧ u.power.holder ≠ some k) ∧
        (∀ l, (s.sessOf k).state = .on → s.leaseOf k = some l → 1 ≤ l.tier → u.entryOf k = none ∧
          (u.sessOf k).state = .on ∧ ∃ left, u.leaseOf k = some { l with trans := some (.lower 0 0 .policy left) })) ∧
      (∀ l tier, old.enabled = r.enabled → (s.sessOf k).state = .on → s.leaseOf k = some l → l.trans = none → r.cap < l.draw →
        tier ≤ s.tiersOf k → s.drawOf k tier ≤ r.cap → (∀ t, tier < t → t ≤ s.tiersOf k → r.cap < s.drawOf k t) → tier < l.tier →
        u.leaseOf k = some { l with trans := some (.lower tier (s.drawOf k tier) .policy (s.settings.settleTime * 10)) } ∧
        (u.lineOf k).outRecall = some (.recall tier (max 1 s.settings.settleTime))) ∧
      (old.enabled = r.enabled → Lease.term (s.leaseOf k) ≤ r.cap → u.leaseOf k = s.leaseOf k ∧ u.sessOf k = s.sessOf k ∧
        (r.cls = old.cls → u.rampOf k = s.rampOf k ∧ u.power.queue = s.power.queue) ∧
        (r.cls ≠ old.cls →
          ((s.rampOf k).state = .none → u.rampOf k = s.rampOf k ∧ u.power.queue = s.power.queue) ∧
          ((s.rampOf k).state = .backoff ∨ (s.rampOf k).state = .ramping →
            u.rampOf k = { s.rampOf k with cls := r.cls } ∧ u.power.queue = s.power.queue) ∧
          ((s.rampOf k).state = .queued → u.rampOf k = { s.rampOf k with cls := r.cls } ∧
            ∃ ahead behind, s.power.queue.filter (fun j => decide (j ≠ k)) = ahead ++ behind ∧
              u.power.queue = ahead ++ k :: behind ∧ (r.cls = .deferrable → behind = []) ∧
              (r.cls = .essential → (∀ j ∈ ahead, (s.rampOf j).cls = .essential) ∧
                ∀ j, behind.head? = some j → (s.rampOf j).cls = .deferrable)))) ∧
      (r.cls = .deferrable → old.cls = .essential → s.isBeneficiary k = true → u.alloc.reclaim = none ∧ u.alloc.earmark = 0) ∧
      (∀ l tier, old.enabled = r.enabled → s.leaseOf k = some l → r.cap < Lease.term (s.leaseOf k) → tier ≤ s.tiersOf k →
        s.drawOf k tier ≤ r.cap → (∀ t, tier < t → t ≤ s.tiersOf k → r.cap < s.drawOf k t) →
        (∀ t d o, l.trans = some (.raise t d o) → (s.sessOf k).state = .on → ∀ n b, (s.lineOf k).outClaim = some (.grant n b) →
          (u.lineOf k).outClaim = some (.deny .cancelled)) ∧
        ((s.sessOf k).state = .on → tier < l.tier → ∃ target left : Nat,
          (match l.trans with
            | some (.lower was _ _ rest) =>
              target = min was tier ∧ left = if tier < was then s.settings.settleTime * 10 else rest
            | _ => target = tier ∧ left = s.settings.settleTime * 10) ∧
          u.leaseOf k = some { l with trans := some (.lower target (s.drawOf k target) .policy left) } ∧
          (u.lineOf k).outRecall = some (.recall target (max 1 ((left + 9) / 10)))) ∧
        ((s.sessOf k).state = .on → l.tier ≤ tier → u.leaseOf k = some { l with trans := match l.trans with
          | some (.raise _ _ _) => none
          | x => x }) ∧
        ((s.sessOf k).state = .rampWait ∨ (s.sessOf k).state = .ramping → tier < l.tier →
          u.leaseOf k = none ∧ (u.rampOf k).state = .none ∧ (u.rampOf k).gate = false ∧ k ∉ u.power.queue ∧
          u.power.holder ≠ some k ∧
          (r.enabled = true → (u.sessOf k).state = .standby ∧ (u.sessOf k).admitFlag = (s.sessOf k).admitFlag) ∧
          (r.enabled = false → (u.sessOf k).state = .barred ∧ (u.sessOf k).lastEnd = .barred) ∧
          (r.enabled = true → s.alloc.queue = [] → s.alloc.reclaim = none →
            u.notices = s.notices.take .cut (some k) .policy false l.tier)))

/-- SET_BUDGET (R162, R28, R66): BAD_ARG before FLOOR_CONFLICT; accepted, the two settings are live, every entry left passes check 6,
and shedding is entered exactly when committed exceeds the new available; else no lease moves. -/
def Obligations.SetBudgetSetsTheBudgetAndTestsForShedding : Prop :=
  ∀ (limit reserve : Word) (s : State), s.store.startDone = true → s.store.state = .idle →
    let ordered := limit.toNat ≤ 32767 ∧ reserve.toNat ≤ 32767 ∧ reserve.toNat ≤ limit.toNat
    let available := limit.toNat - reserve.toNat
    (¬ ordered → exec (.setBudget limit reserve) s = .next (s.answered .badArg)) ∧
    (ordered → available < s.floorSum → exec (.setBudget limit reserve) s = .next (s.answered .floorConflict)) ∧
    (ordered → s.floorSum ≤ available →
      ∃ u : State, exec (.setBudget limit reserve) s = .next (u.finish.answered .ok) ∧
        u.cmd = { s.cmd with settings := { s.cmd.settings with supplyLimit := limit.toNat, reserve := reserve.toNat } } ∧
        u.host = s.host ∧ u.store = s.store ∧ u.present = s.present ∧ u.pending = s.pending ∧ u.raised = s.raised ∧
        (s.available < available → u.alloc.passDue = true) ∧
        (∀ j e, u.entryOf j = some e → max (s.floorOf j) (s.drawOf j e.least) + s.floorSum ≤ available + s.floorOf j) ∧
        (s.alloc.committed ≤ available → u.alloc.state = s.alloc.state ∧ u.alloc.committed = s.alloc.committed ∧
          u.alloc.leases = s.alloc.leases ∧ u.sess = s.sess ∧ u.power = s.power ∧ u.mon = s.mon ∧
          (u.alloc.reclaim = none → s.EarmarkLaw → u.alloc.earmark = 0) ∧
          (u.alloc.reclaim.isSome = true → u.alloc.committed + u.alloc.earmark ≤ available) ∧
          (∀ j e, u.entryOf j = some e → s.entryOf j = some e) ∧
          (∀ j e, s.entryOf j = some e → max (s.floorOf j) (s.drawOf j e.least) + s.floorSum ≤ available + s.floorOf j →
            u.entryOf j = some e)) ∧
        (available < s.alloc.committed → u.alloc.state = .shedding ∧ u.alloc.reclaim = none ∧
          (s.alloc.queue = [] → s.alloc.reclaim = none →
            (if s.alloc.state = .shedding then s.notices.records
              else (s.notices.take .shedBegin none .none false (s.alloc.committed - available)).records) <+:
              u.notices.records)))

/-- R66, R67, R68: the plan made when SET_BUDGET leaves committed above available always covers the excess: what is committed
when the command ends, less the releases of the LOWERs in flight, is within available. -/
def Obligations.ASheddingPlanCoversTheExcess : Prop :=
  ∀ (limit reserve : Word) (s t : State), s.Lawful → s.store.startDone = true → s.store.state = .idle →
    limit.toNat ≤ 32767 → reserve.toNat ≤ limit.toNat → s.floorSum ≤ limit.toNat - reserve.toNat →
    exec (.setBudget limit reserve) s = .next t → t.alloc.state = .shedding →
    (t.alloc.committed : Int) - (allSlots.map (fun k => match t.leaseOf k with
      | none => (0 : Int)
      | some l =>
        match l.trans with
        | some (.lower _ d _ _) => (t.commitment k : Int) - (max (t.floorOf k) d : Nat)
        | _ => 0)).sum ≤ t.available

/-- ADMIT (R163, R32): STATE unless the session is STANDBY with its admit flag clear; otherwise the flag is set and a BRINGUP
entry for the preferred tier joins, or is denied with OVER_CAP or NEVER_FITS. -/
def Obligations.AdmitBringsTheModuleUp : Prop :=
  ∀ (slot : Byte) (k : Slot) (s : State), s.store.startDone = true → s.store.state = .idle → slot.toNat = k.val →
    (¬ ((s.sessOf k).state = .standby ∧ (s.sessOf k).admitFlag = false) →
      exec (.admitSlot slot) s = .next (s.answered .state)) ∧
    (∀ d, (s.sessOf k).state = .standby → (s.sessOf k).admitFlag = false → (s.sessOf k).desc = some d → d.listOk = true →
      s.leaseOf k = none → s.entryOf k = none →
      let wanted := if d.preferred = 0 then d.draws.length else d.preferred.toNat
      let least := max (s.floorOf k) (d.drawOf 1)
      let denied := fun (u : State) (r : Reason) => u.alloc.queue = s.alloc.queue ∧
        (u.lineOf k).outClaim = claimAfter (s.lineOf k).outClaim (.deny r) ∧
        u.notices = s.notices.take .denied (some k) r false wanted
      ∃ u : State, exec (.admitSlot slot) s = .next (u.finish.answered .ok) ∧ s.HostSame u ∧ s.OthersSame u k ∧ u.raised = s.raised ∧
        u.sessOf k = { s.sessOf k with admitFlag := true } ∧ u.alloc.leases = s.alloc.leases ∧ u.power = s.power ∧
        u.mon = s.mon ∧ u.alloc.committed = s.alloc.committed ∧
        ((s.policyOf k).cap < d.drawOf 1 → denied u .overCap) ∧
        (d.drawOf 1 ≤ (s.policyOf k).cap → s.available + s.floorOf k < least + s.floorSum → denied u .neverFits) ∧
        (d.drawOf 1 ≤ (s.policyOf k).cap → least + s.floorSum ≤ s.available + s.floorOf k →
          ∃ pos, s.Joined u ⟨k, (s.sessOf k).tag, .bringup, wanted, 1, (s.policyOf k).cls, (s.policyOf k).rank, 0⟩ pos ∧
            u.notices = s.notices.take .queued (some k) .bringup false pos))

/-- EVICT (R164, R46, R49, R36): STATE before BAD_ARG; otherwise flag and entry go, with DENY and DENIED, and after them the
lease is recalled to 0 or, in a ramp or by a hard eviction, dropped with CUT. The leaving of the entry brings a pass, and so
does the drop where committed falls. The model's choices: RECLAIM_END of a beneficiary follows its DENIED (log entry 17), and a
drop that frees nothing brings no pass (log entry 44). What the drop does to a reclaim is as R60 and R63 have it. -/
def Obligations.EvictTakesFlagEntryAndLease : Prop :=
  ∀ (slot : Byte) (hard : Word) (k : Slot) (s : State), s.store.startDone = true → s.store.state = .idle → slot.toNat = k.val →
    (s.leaseOf k = none → s.entryOf k = none → exec (.evict slot hard) s = .next (s.answered .state)) ∧
    (((s.leaseOf k).isSome = true ∨ (s.entryOf k).isSome = true) → 1 < hard.toNat →
      exec (.evict slot hard) s = .next (s.answered .badArg)) ∧
    (((s.leaseOf k).isSome = true ∨ (s.entryOf k).isSome = true) → hard.toNat ≤ 1 →
      ∃ u : State, exec (.evict slot hard) s = .next (u.finish.answered .ok) ∧ s.HostSame u ∧ s.OthersSame u k ∧ u.raised = s.raised ∧
        (u.sessOf k).admitFlag = false ∧ u.entryOf k = none ∧
        (∀ e, s.entryOf k = some e → s.isBeneficiary k = true → u.alloc.reclaim = none ∧ u.alloc.earmark = 0) ∧
        (∀ e, s.entryOf k = some e → s.leaseOf k = none → (s.sessOf k).state = .standby → s.isBeneficiary k = false →
          u.sessOf k = { s.sessOf k with admitFlag := false } ∧ u.power = s.power ∧ u.mon = s.mon ∧
          (u.lineOf k).outClaim = claimAfter (s.lineOf k).outClaim (.deny .cancelled) ∧
          u.notices = s.notices.take .denied (some k) .cancelled false e.wanted) ∧
        (∃ v : State, s.EntryDenied v k .cancelled ∧ v.sessOf k = { s.sessOf k with admitFlag := false } ∧
          (s.leaseOf k = none → (s.sessOf k).state = .standby → u = v) ∧
          (∀ l, s.leaseOf k = some l → 1 ≤ l.tier →
            ((s.sessOf k).state = .on → hard = 0 → v.RecallStands u k 0 .host ∧ u.sess = v.sess ∧ u.power = s.power ∧
              u.mon = s.mon) ∧
            ((s.sessOf k).state = .on ∧ hard = 1 ∨ (s.sessOf k).state = .rampWait ∨ (s.sessOf k).state = .ramping →
              v.Settles u k false false (v.notices.take .cut (some k) .host false l.tier)))))

/-- SET_TIER (R165, R34, R46, R47): STATE before BAD_ARG; above the granted tier a HOST claim of exactly that tier, below it a
recall, at it nothing. Without an entry to replace, a denial sends no message to the module. -/
def Obligations.SetTierClaimsOrRecalls : Prop :=
  ∀ (slot : Byte) (tier : Word) (k : Slot) (s : State), s.store.startDone = true → s.store.state = .idle → slot.toNat = k.val →
    ((s.sessOf k).state ≠ .on → exec (.setTier slot tier) s = .next (s.answered .state)) ∧
    ((s.sessOf k).state = .on → s.tiersOf k < tier.toNat → exec (.setTier slot tier) s = .next (s.answered .badArg)) ∧
    (∀ l, (s.sessOf k).state = .on → tier.toNat ≤ s.tiersOf k → s.leaseOf k = some l →
      (tier.toNat = l.tier → exec (.setTier slot tier) s = .next (s.finish.answered .ok)) ∧
      ∃ u : State, exec (.setTier slot tier) s = .next (u.finish.answered .ok) ∧ s.HostSame u ∧ s.OthersSame u k ∧
        u.raised = s.raised ∧ u.sess = s.sess ∧ u.power = s.power ∧ u.mon = s.mon ∧
        (tier.toNat < l.tier → s.RecallStands u k tier.toNat .host ∧ u.entryOf k = s.entryOf k) ∧
        (l.tier < tier.toNat → u.alloc.leases = s.alloc.leases ∧ u.alloc.committed = s.alloc.committed ∧
          (∀ r, s.ClaimFails k tier.toNat tier.toNat r → s.entryOf k = none →
            u.line = s.line ∧ u.alloc.queue = s.alloc.queue ∧
            u.notices = s.notices.take .denied (some k) r false tier.toNat) ∧
          (∀ r, s.ClaimFails k tier.toNat tier.toNat r → (s.entryOf k).isSome = true → u.entryOf k = none ∧
            (u.lineOf k).outClaim = claimAfter (s.lineOf k).outClaim (.deny r)) ∧
          ((∀ r, ¬ s.ClaimFails k tier.toNat tier.toNat r) → u.line = s.line ∧
            (s.entryOf k = none → ∃ pos,
              s.Joined u ⟨k, (s.sessOf k).tag, .host, tier.toNat, tier.toNat, (s.policyOf k).cls, (s.policyOf k).rank, 0⟩ pos ∧
              u.notices = s.notices.take .queued (some k) .host false pos) ∧
            (∀ e, s.entryOf k = some e →
              u.entryOf k = some { e with origin := .host, wanted := tier.toNat, least := tier.toNat }))))

/-- CLEAR_FAULT and RESCAN (R93, R79, R166): each acts in its one state and answers STATE in every other; the slot probes again,
or is BARRED where a faulted slot is disabled, with an unsent SEVER or REFUSE removed and, at CLEAR_FAULT, the strike lifted. -/
def Obligations.ClearFaultAndRescanReopenTheSlot : Prop :=
  ∀ (slot : Byte) (k : Slot) (s : State), s.store.startDone = true → s.store.state = .idle → slot.toNat = k.val →
    ((s.sessOf k).state ≠ .faulted → exec (.clearFault slot) s = .next (s.answered .state)) ∧
    ((s.sessOf k).state ≠ .rejected → exec (.rescan slot) s = .next (s.answered .state)) ∧
    ((s.sessOf k).state = .faulted → ∃ u : State, exec (.clearFault slot) s = .next (u.answered .ok) ∧ s.HostSame u ∧
      s.OthersSame u k ∧ u.alloc = s.alloc ∧ u.notices = s.notices ∧ u.raised = s.raised ∧
      u.power.queue = s.power.queue ∧ u.power.holder = s.power.holder ∧
      u.sessOf k = { s.sessOf k with
        state := if (s.policyOf k).enabled = true then .listening else .barred, desc := none, lastEnd := .none } ∧
      u.rampOf k = { s.rampOf k with aux := (s.policyOf k).enabled } ∧
      u.monOf k = { s.monOf k with run := 0, struck := false, clean := 0 } ∧ (u.lineOf k).outSession = none ∧
      ((s.policyOf k).enabled = true → (u.lineOf k).poll = some s.settings.pollPeriod)) ∧
    ((s.sessOf k).state = .rejected → ∃ u : State, exec (.rescan slot) s = .next (u.answered .ok) ∧ s.HostSame u ∧
      s.OthersSame u k ∧ u.alloc = s.alloc ∧ u.notices = s.notices ∧ u.raised = s.raised ∧ u.mon = s.mon ∧
      u.power.queue = s.power.queue ∧ u.power.holder = s.power.holder ∧
      u.sessOf k = { s.sessOf k with state := .listening, desc := none } ∧ (u.rampOf k).aux = true ∧
      (u.lineOf k).outSession = none ∧ (u.lineOf k).poll = some s.settings.pollPeriod)

/-! ### The policy store -/

/-- STORE_POLICY, ERASE_COMPLETE, PROGRAM_COMPLETE and VERIFY_COMPLETE (R148, R149, R150, R152): the snapshot goes to the copy the
pointer does not name; only a verified store moves the pointer and the generation; a result that a host port reset has
discarded sets nothing the host sees. The model's choices: a completion outside its own state changes nothing (log entry 4), and
how the verification came out is the operand of VERIFY_COMPLETE (log entry 36). -/
def Obligations.AStoreWritesTheOtherCopy : Prop :=
  ∀ s : State, s.store.startDone = true →
    let p := s.store
    let put := fun (x : Copy) => match p.active with
      | .a => { p with copyB := x }
      | .b => { p with copyA := x }
    (p.state = .idle → exec .storePolicy s = .next { s with store := { put .partly with
      state := .erasing, snapshot := some ⟨p.activeGen + 1, s.cmd.policy, s.cmd.settings⟩, discard := false } }) ∧
    (p.state = .erasing → exec .eraseComplete s = .next { s with store := { put .blank with state := .programming } }) ∧
    (p.state ≠ .erasing → exec .eraseComplete s = .next s) ∧
    (∀ i, p.state = .programming → p.snapshot = some i →
      exec .programComplete s = .next { s with store := { put (.unchecked i) with state := .verifying } }) ∧
    (p.state ≠ .programming → exec .programComplete s = .next s) ∧
    (p.state ≠ .verifying → ∀ o, exec (.verifyComplete o) s = .next s) ∧
    (∀ i, p.state = .verifying → p.snapshot = some i →
      (let good : PolicyStore := { put (.whole i) with
          state := .idle, snapshot := none, discard := false, active := p.active.other, activeGen := i.generation }
       (p.discard = false → exec (.verifyComplete .success) s = .next { s.answered .ok with
          store := good, notices := s.notices.take .storeDone none .none false i.generation.toNat }) ∧
       (p.discard = true → exec (.verifyComplete .success) s = .next { s with store := good })) ∧
      (∀ o x, (o, x) ∈ [(VerifyOutcome.fieldDiffers true, Copy.blank), (.fieldDiffers false, .partly), (.checkDiffers, .partly)] →
        let bad : PolicyStore := { put x with state := .idle, snapshot := none, discard := false }
        (p.discard = false → exec (.verifyComplete o) s = .next { s.answered .storeFail with store := bad }) ∧
        (p.discard = true → exec (.verifyComplete o) s = .next { s with store := bad })))

/-- What a store is for (R148, R149, R150, R144, R145): a store that verifies, then a device reset and the load, and the live
policy is back whole with the next generation, whichever copy was active and whether or not it was VALID. -/
def Obligations.AStoredPolicySurvivesAReset : Prop :=
  ∀ (reached : Bool) (s s1 s2 s3 s4 s5 t : State), s.PolicyLaw → s.store.startDone = true → s.store.state = .idle →
    (∀ i, (s.store.copyOf s.store.active).image? = some i → i.generation = s.store.activeGen) →
    exec .storePolicy s = .next s1 → exec .eraseComplete s1 = .next s2 → exec .programComplete s2 = .next s3 →
    exec (.verifyComplete .success) s3 = .next s4 → exec (.deviceReset reached) s4 = .next s5 → exec .policyLoad s5 = .next t →
    t.cmd.policy = s.cmd.policy ∧ t.cmd.settings = s.cmd.settings ∧ t.store.activeGen = s.store.activeGen + 1 ∧
      t.store.active = s.store.active.other ∧ t.store.copyOf s.store.active = s.store.copyOf s.store.active

/-! ### The host port -/

/-- CONTROL (R157, R167, R168): a write takes its four fields and then the port reset, in one happening; a change of BACKFILL, or of
PREEMPT to 1, brings a pass; PORT_RESET clears what the host sees and no more, and a store in progress runs on with its result
discarded (R152). The model's choices: each of the four rows that name one field is a write of that field with the others as they
stand (log entry 13), and the pass of a changed field comes after the port reset, so that its notices stand (log entry 34). -/
def Obligations.ControlWritesItsFields : Prop :=
  ∀ s : State, s.store.startDone = true → s.WordFits true 0x03 →
    let x := s.cmd.settings
    let written := fun (backfill preempt noticeEn cmdEn : Bool) => { s with
      host := { s.host with burst := some ⟨true, 0x04⟩, intNoticeEn := noticeEn, intCmdEn := cmdEn }
      cmd := { s.cmd with settings := { x with backfill := backfill, preempt := preempt } }
      alloc := { s.alloc with passDue := s.alloc.passDue || (backfill != x.backfill) || (preempt && !x.preempt) } }
    let portReset := fun (t : State) => { t with
      notices := { records := [], nextSeq := 0, lostCount := 0 }
      cmd := { t.cmd with
        staging := { enabled := false, cls := .deferrable, rank := 0, floor := 0, cap := 4095, startMode := .host }, result := .ok }
      host := { t.host with tableBuf := [], noticeBuf := .empty, wordPtr := 0, noticePtr := 0, cmdDone := false,
                            cmdOverrun := false, badWrite := false, armed := false }
      store := { t.store with discard := decide (t.store.state ≠ .idle) } }
    (∀ w : Word,
      let t := written (w.getLsbD 0) (w.getLsbD 1) (w.getLsbD 2) (w.getLsbD 3)
      exec (.registerWrite 0x03 w) s = .next (State.finish (if w.getLsbD 4 = true then portReset t else t))) ∧
    (∀ v, exec (.setBackfill v) s = .next (written v x.preempt s.host.intNoticeEn s.host.intCmdEn).finish) ∧
    (∀ v, exec (.setPreempt v) s = .next (written x.backfill v s.host.intNoticeEn s.host.intCmdEn).finish) ∧
    (∀ notice cmd, exec (.setIntEnables notice cmd) s = .next (written x.backfill x.preempt notice cmd).finish) ∧
    exec .portReset s = .next (portReset (written x.backfill x.preempt s.host.intNoticeEn s.host.intCmdEn)).finish

/-- SETTING_WRITE and PASS_LIMIT_WRITE (R156, R177, R43): a word whose fields are in range and whose reserved bits are 0 is taken
and reads back; any other is ignored whole with BAD_WRITE. A new PASS_LIMIT clamps the counts and brings a pass. -/
def Obligations.ASettingIsTakenWholeOrIgnored : Prop :=
  ∀ (reg : SettingReg) (w : Word) (s : State), s.store.startDone = true →
    let n := w.toNat
    let x := s.cmd.settings
    let taken : Option Settings := match reg with
      | .settleTime => if 1 ≤ n ∧ n ≤ 255 then some { x with settleTime := n } else none
      | .pollPeriod => if 5 ≤ n ∧ n ≤ 255 then some { x with pollPeriod := n } else none
      | .linkCtrl =>
        if n % 256 ≤ 3 ∧ 5 ≤ n / 256 then some { x with lineRetries := n % 256, linkGrace := n / 256 } else none
      | .rampCtrl =>
        if 5 ≤ n % 256 ∧ n / 256 ≤ 3 then some { x with rampTimeout := n % 256, rampRetries := n / 256 } else none
      | .monCtrl => if n % 256 ≤ 3 ∧ 1 ≤ n / 256 ∧ n / 256 ≤ 15 then
          some { x with scanPeriod := 2 * 2 ^ (n % 256), overdrawCount := n / 256 } else none
      | .overdrawMargin => if n ≤ 1023 then some { x with overdrawMargin := n } else none
      | .sagLevel => if n ≤ 1000 then some { x with sagLevel := n } else none
      | .sagHoldoff => if 10 ≤ n ∧ n ≤ 255 then some { x with sagHoldoff := n } else none
    let after := fun (addr : BitVec 7) => { s.host with burst := some ⟨true, addr + 1⟩ }
    (∀ y, taken = some y → s.WordFits true (settingAddr reg) → ∃ t : State, exec (.settingWrite reg w) s = .next t ∧
      t = { s with host := after (settingAddr reg), cmd := { s.cmd with settings := y } } ∧
      t.register (settingAddr reg) = w) ∧
    (taken = none → s.WordFits true (settingAddr reg) → exec (.settingWrite reg w) s = .next { s with
      host := { after (settingAddr reg) with badWrite := true } }) ∧
    (15 < n → s.WordFits true 0x15 → exec (.passLimitWrite w) s = .next { s with host := { after 0x15 with badWrite := true } }) ∧
    (n ≤ 15 → s.WordFits true 0x15 → exec (.passLimitWrite w) s = .next (State.finish { s with
      host := after 0x15, cmd := { s.cmd with settings := { x with passLimit := n } }
      alloc := { s.alloc with
        queue := s.alloc.queue.map (fun e => { e with passCount := min e.passCount n })
        passDue := s.alloc.passDue || decide (n ≠ x.passLimit) } }))

/-- The other write words (R154, R155, R158, R159, R160, R178): STATUS clears the sticky flags written 1; TABLE_SEL restarts the
record; TABLE_DATA stores into STAGING or sets BAD_WRITE, and the word pointer moves to the next word of the selected record, or
from its last word to 0; CMD arms; the arguments are stored; the rest is discarded. -/
def Obligations.AWriteWordActsByItsRegister : Prop :=
  ∀ (addr : BitVec 7) (w : Word) (s : State), s.store.startDone = true →
    let h := s.host
    let code := h.tableSel.toNat / 256
    (s.WordFits true 0x02 → exec (.statusW1C w) s = .next { s with host := { h with
      burst := some ⟨true, 0x03⟩, cmdDone := h.cmdDone && !w.getLsbD 3, cmdOverrun := h.cmdOverrun && !w.getLsbD 4
      badWrite := h.badWrite && !w.getLsbD 5 } }) ∧
    (s.WordFits true 0x18 → exec (.tableSelWrite w) s = .next { s with host := { h with
      burst := some ⟨true, 0x19⟩, tableSel := w, wordPtr := 0 } }) ∧
    (s.WordFits true 0x19 → code = 1 → h.wordPtr ≤ 2 → exec (.tableDataWrite w) s = .next { s with
      host := { h with burst := some ⟨true, 0x19⟩, wordPtr := (h.wordPtr + 1) % 3 }
      cmd := { s.cmd with staging := match h.wordPtr with
        | 0 => { s.cmd.staging with
            enabled := w.getLsbD 0, cls := if w.getLsbD 1 = true then .essential else .deferrable
            startMode := if w.getLsbD 2 = true then .auto else .host, rank := w.toNat / 16 % 16 }
        | 1 => { s.cmd.staging with floor := w.toNat }
        | _ => { s.cmd.staging with cap := w.toNat } } }) ∧
    (s.WordFits true 0x19 → code ≠ 1 → exec (.tableDataWrite w) s = .next { s with host := { h with
      burst := some ⟨true, 0x19⟩, badWrite := true
      wordPtr := if recordWords (BitVec.ofNat 8 code) ≤ h.wordPtr + 1 then 0 else h.wordPtr + 1 } }) ∧
    (s.WordFits true addr →
      (addr = 0x0B → exec (.registerWrite addr w) s = .next { s with host := { h with
        burst := some ⟨true, 0x0C⟩, cmd := w, armed := true } }) ∧
      (addr = 0x0C → exec (.registerWrite addr w) s = .next { s with host := { h with burst := some ⟨true, 0x0D⟩, arg0 := w } }) ∧
      (addr = 0x0D → exec (.registerWrite addr w) s = .next { s with host := { h with burst := some ⟨true, 0x0E⟩, arg1 := w } }) ∧
      (addr.toNat ≤ 0x01 ∨ (0x04 ≤ addr.toNat ∧ addr.toNat ≤ 0x0A) ∨ addr = 0x0E ∨ 0x1B ≤ addr.toNat →
        exec (.registerWrite addr w) s = .next { s with host := { h with burst := some ⟨true, addr + 1⟩ } }) ∧
      (addr = 0x1A → exec (.registerWrite addr w) s = .next { s with host := { h with burst := some ⟨true, 0x1A⟩ } }))

/-- Posting and the reads. A post takes the next sequence number and joins the tail of 32 records, or is lost and counted (R172, R173).
With a side effect (R158, R129, R174, R172, R20, R7): word 0 of a table captures the record, clearing a MONITOR peak,
and every word moves the pointer to the next of the record, or from its last to 0; word 0 of NOTICE_DATA takes the head of the
queue, words 1 and 2 give its slot, reason, short mark and value; the first budget word of a transaction captures all seven.
Without one: every register of section 11.2, STATUS, CONTROL, CMD_RESULT, NOTICE_COUNT, START_REPORT and BULK_VOLTAGE among them,
with INT_N as R175 gives; and what a capture of each table of section 11.3 holds. The model's choices: one row reads every register (log entry 14), the last
reason is the last end's outside REJECTED (log entry 19), and a value too wide for its field is cut to it (log entry 33); what
lies beyond a shorter record in the read buffer is left open (log entry 52). -/
def Obligations.AReadWordCapturesAndAdvances : Prop :=
  ∀ s : State, s.store.startDone = true →
    let h := s.host
    let next := if recordWords (BitVec.ofNat 8 (h.tableSel.toNat / 256)) ≤ h.wordPtr + 1 then 0 else h.wordPtr + 1
    (∀ (q : NoticeQueue) kind slot reason short value,
      let t := q.take kind slot reason short value
      t.nextSeq = q.nextSeq + 1 ∧
      (q.records.length < 32 →
        t.records = q.records ++ [⟨q.nextSeq, kind, slot, reason, short, value⟩] ∧ t.lostCount = q.lostCount) ∧
      (32 ≤ q.records.length → t.records = q.records ∧ t.lostCount = min 255 (q.lostCount + 1))) ∧
    CodesRead ∧ s.RegistersRead ∧ (∀ sel, s.TableReads sel) ∧
    (List.range 8).map (fun code => recordWords (BitVec.ofNat 8 code)) = [3, 3, 7, 5, 3, 3, 6, 10] ∧
    (∀ addr : BitVec 7, s.WordFits false addr → addr.toNat < 0x04 ∨ (0x0A < addr.toNat ∧ addr.toNat < 0x19) ∨ 0x1A < addr.toNat →
      exec (.budgetRegisterRead addr) s = .next { s with host := { h with
        burst := some ⟨false, addr + 1⟩, sdo := s.register addr } }) ∧
    (s.WordFits false 0x19 →
      (h.wordPtr = 0 → exec .tableDataRead s = .next { s with
        host := { h with
          burst := some ⟨false, 0x19⟩, tableBuf := s.recordOf h.tableSel, wordPtr := next
          sdo := (s.recordOf h.tableSel)[0]?.getD 0 }
        mon := { s.mon with slots := PerSlot.tabulate (fun k =>
          if h.tableSel.toNat = 6 * 256 + k.val then { s.monOf k with peak := 0 } else s.monOf k) } }) ∧
      (0 < h.wordPtr → ∃ w, exec .tableDataRead s = .next { s with host := { h with
        burst := some ⟨false, 0x19⟩, wordPtr := next, sdo := w } } ∧
        (∀ x, h.tableBuf[h.wordPtr]? = some x → w = x) ∧ (h.tableBuf = [] → w = 0))) ∧
    (s.WordFits false 0x1A →
      (∀ n rest, h.noticePtr = 0 → s.notices.records = n :: rest →
        exec .noticeDataRead s = .next { s with
          notices := { s.notices with records := rest }
          host := { h with burst := some ⟨false, 0x1A⟩, noticeBuf := .record n, noticePtr := 1
                           sdo := BitVec.ofNat 16 (n.kind.code + n.seq.toNat * 256) } }) ∧
      (h.noticePtr = 0 → s.notices.records = [] → exec .noticeDataRead s = .next { s with host := { h with
        burst := some ⟨false, 0x1A⟩, noticeBuf := .emptyRecord, noticePtr := 1, sdo := 0 } }) ∧
      (∀ n, h.noticePtr = 1 → h.noticeBuf = .record n → exec .noticeDataRead s = .next { s with host := { h with
        burst := some ⟨false, 0x1A⟩, noticePtr := 2
        sdo := BitVec.ofNat 16 (n.slot.elim 15 Fin.val + n.reason.code * 256 + n.short.toNat * 32768) } }) ∧
      (∀ n, h.noticePtr = 2 → h.noticeBuf = .record n → exec .noticeDataRead s = .next { s with host := { h with
        burst := some ⟨false, 0x1A⟩, noticePtr := 0, sdo := BitVec.ofNat 16 n.value } }) ∧
      ((h.noticeBuf = .empty ∨ h.noticeBuf = .emptyRecord) → h.noticePtr = 1 ∨ h.noticePtr = 2 →
        exec .noticeDataRead s = .next { s with host := { h with
          burst := some ⟨false, 0x1A⟩, noticePtr := (h.noticePtr + 1) % 3, sdo := 0 } })) ∧
    (let now : BudgetCapture :=
      { supplyLimit := BitVec.ofNat 16 s.settings.supplyLimit, reserve := BitVec.ofNat 16 s.settings.reserve
        available := BitVec.ofNat 16 (s.settings.supplyLimit - s.settings.reserve)
        committed := BitVec.ofNat 16 s.alloc.committed, earmark := BitVec.ofNat 16 s.alloc.earmark
        free := BitVec.ofNat 16 (s.settings.supplyLimit - s.settings.reserve - (s.alloc.committed + s.alloc.earmark))
        excess := BitVec.ofNat 16 (s.alloc.committed + s.alloc.earmark - (s.settings.supplyLimit - s.settings.reserve)) }
     ∀ addr w, (addr, w) ∈ [((0x04 : BitVec 7), BudgetCapture.supplyLimit), (0x05, BudgetCapture.reserve),
        (0x06, BudgetCapture.available), (0x07, BudgetCapture.committed), (0x08, BudgetCapture.earmark),
        (0x09, BudgetCapture.free), (0x0A, BudgetCapture.excess)] → s.WordFits false addr →
      exec (.budgetRegisterRead addr) s = .next { s with host := { h with
        burst := some ⟨false, addr + 1⟩, budget := some (h.budget.getD now), sdo := w (h.budget.getD now) } })

/-- Until the load is complete (R144, R145): a read returns the register's reset value and has no side effect, and a write is
discarded without a flag. That no event, message, report or host command acts, that a raised one still leaves State.raised, and
that the address of a burst runs on, is the model's choice (log entry 29); that a word which is not the next of the transaction
in progress first ends it is too (log entry 30). PRESENT_CHANGE moves its pin alone. -/
def Obligations.NothingActsBeforeTheLoad : Prop :=
  ∀ (s : State) (k : Slot) (b b' : Byte) (w w' : Word) (addr : BitVec 7) (reg : SettingReg) (v v' : Bool) (o : VerifyOutcome)
    (samples : PerSlot Sample) (n : Nat) (bytes : List Byte) (strike : StrikeNumber) (serial : BitVec 32) (draws : List Word),
    s.store.startDone = false →
    let word := fun (write : Bool) (next : BitVec 7) => { s.host with burst := some ⟨write, next⟩ }
    let after := fun (a : BitVec 7) => if a = 0x19 ∨ a = 0x1A then a else a + 1
    let released : State := { s with host := { s.host with burst := none, budget := none, noticePtr := 0, armed := false } }
    (∀ c ∈ [Instr.applyPolicy b, .setBudget w w', .admitSlot b, .evict b w, .setTier b w, .clearFault b, .rescan b,
        .storePolicy, .eraseComplete, .programComplete, .verifyComplete o, .insertion k, .removal k, .scan samples n,
        .outputGood k, .rampStart, .rampTimeout k, .backoffEnd k, .strikeClear k, .sagEnd, .recallDeadline k, .pollTimer k,
        .frameSend k, .lineGapTimeout k, .responseTimeout k, .responseBegin k, .responseComplete k bytes v, .linkGraceExpiry k],
      exec c s = .next s) ∧
    (∀ c ∈ [Instr.rampDone k b, .overdrawStrike k b strike, .sagBegin n, .hello k b w serial b b' draws, .claim k b b b',
        .yieldTier k b b', .ready k b b', .moduleFault k b b', .noneMessage k b],
      exec c s = .next { s with raised := s.raised.erase c }) ∧
    exec (.presentChange k v) s = .next { s with present := s.present.set k v } ∧
    (∀ c a, (c, a) ∈ [(Instr.settingWrite reg w, settingAddr reg), (.passLimitWrite w, 0x15), (.statusW1C w, 0x02),
        (.tableSelWrite w, 0x18), (.tableDataWrite w, 0x19), (.setBackfill v, 0x03), (.setPreempt v, 0x03),
        (.setIntEnables v v', 0x03), (.portReset, 0x03), (.registerWrite addr w, addr)] →
      (s.WordFits true a → exec c s = .next { s with host := word true (after a) }) ∧
      (¬ s.WordFits true a → exec c s = exec c released)) ∧
    exec .transactionEnd s = .next released ∧
    (∀ c a, (c, a) ∈ [(Instr.tableDataRead, (0x19 : BitVec 7)), (.noticeDataRead, 0x1A), (.budgetRegisterRead addr, addr)] →
      (s.WordFits false a → exec c s = .next { s with host := { word false (after a) with
        sdo := if a = 0x00 then 0x0B08 else if a = 0x01 then 0x0001 else 0 } }) ∧
      (¬ s.WordFits false a → exec c s = exec c released))

/-! ### The end of a happening, grants and reclaim -/

/-- What `State.finish` does (R37, R71, R118). It leaves a settled state as it is, settles any other, reaches neither the Host
Port nor the live policy, and moves no slot without a lease, an entry or a place in the Ramp Queue. First, shedding whose
committed is within available ends with SHED_END, in SAG_HOLD under the sag condition, else in RUNNING with a pass (R71, R19).
Then the pass, where one is due in RUNNING: it steps over entries whose link is LOST or whose lease moves (R38) and, with BACKFILL
on, past those below PASS_LIMIT that do not fit and begin no reclaim (R42); the first entry left that fits is granted; one that
does not fit stops the pass where it may not be passed, after the reclaim that its plan begins (R59), beyond which a pass with
BACKFILL goes on. A pass that grants nothing to a beneficiary without victims ends the reclaim as UNMET and brings a further
pass (R64). Last, where no pass runs, the head of the Ramp Queue takes a free ramp resource and ramps (R118, R119). That the
pass comes first, so that an ESSENTIAL slot it grants ramps before a waiting DEFERRABLE one, is the model's choice (log
entry 47), and so is that an entry held back by its cap alone, with a shortfall of 0 or less, begins no reclaim (log entry 40). -/
def Obligations.FinishEndsTheHappening : Prop :=
  ∀ s : State, (s.Settled → s.finish = s) ∧ s.finish.Settled ∧ s.HostSame s.finish ∧ s.finish.raised = s.raised ∧
    (∀ k, s.leaseOf k = none → s.entryOf k = none → k ∉ s.power.queue → s.SameSlot s.finish k) ∧
    (s.alloc.state = .shedding → s.alloc.committed ≤ s.available → s.finish = State.finish { s with
      notices := s.notices.take .shedEnd none .none false s.alloc.committed
      alloc := { s.alloc with
        state := if s.alloc.sagCondition = true then .sagHold else .running, passDue := true } }) ∧
    (let walked : State := { s with alloc := { s.alloc with passDue := false } }
     (s.alloc.state = .running → s.alloc.passDue = false) → (s.alloc.state = .shedding → s.available < s.alloc.committed) →
      (s.power.holder ≠ none ∨ s.power.hold = true ∨ s.power.queue = [] → s.finish = walked) ∧
      (∀ k rest, s.power.holder = none → s.power.hold = false → s.power.queue = k :: rest → k ∉ rest →
        s.finish = { walked with
          power := { s.power with
            queue := rest, holder := some k
            slots := s.power.slots.set k { s.rampOf k with state := .ramping, gate := true, timer := s.settings.rampTimeout } }
          mon := { s.mon with
            slots := s.mon.slots.set k { s.monOf k with watchArmed := true, watchTag := (s.rampOf k).tag, watchCount := 0 } }
          sess := s.sess.set k { s.sessOf k with state := .ramping } })) ∧
    (s.EntryLaw → s.alloc.state = .running → s.alloc.passDue = true →
      let walked : State := { s with alloc := { s.alloc with passDue := false } }
      let unmet := fun (r : Reclaim) => State.finish { s with
        notices := s.notices.take .reclaimEnd (some r.slot) .preempt false 3
        alloc := { s.alloc with passDue := true, reclaim := none, earmark := 0 } }
      let stepped := fun (e : Entry) => (s.lineOf e.slot).lost = true ∨ ∃ l x, s.leaseOf e.slot = some l ∧ l.trans = some x
      let plan := fun (e : Entry) => s.reclaimPlan (s.shedOrder.filter s.candidate) (s.shortfall e)
      let begins := fun (e : Entry) (p : List (Slot × Nat)) => s.alloc.reclaim = none ∧ e.cls = .essential ∧
        s.settings.preempt = true ∧ 0 < s.shortfall e ∧ plan e = some p
      let passable := fun (e : Entry) => s.settings.backfill = true ∧ e.passCount < s.settings.passLimit
      let passed := fun (e : Entry) => stepped e ∨ (s.grantTier e = 0 ∧ passable e ∧ ∀ p, ¬ begins e p)
      ((∀ e ∈ s.alloc.queue, passed e) →
        (s.alloc.reclaim = none → s.finish = walked.finish) ∧
        (∀ r, s.alloc.reclaim = some r → r.victims ≠ [] → s.finish = walked.finish) ∧
        (∀ r, s.alloc.reclaim = some r → r.victims = [] → s.finish = unmet r)) ∧
      (∀ ahead e behind, s.alloc.queue = ahead ++ e :: behind → (∀ x ∈ ahead, passed x) → ¬ stepped e →
        (s.grantTier e = 0 → ¬ passable e →
          (s.alloc.reclaim = none → (∀ p, ¬ begins e p) → s.finish = walked.finish) ∧
          (∀ p, begins e p → s.finish = (walked.beginReclaim e (s.shortfall e).toNat p).finish) ∧
          (∀ r, s.alloc.reclaim = some r → r.victims ≠ [] → s.finish = walked.finish) ∧
          (∀ r, s.alloc.reclaim = some r → r.victims = [] → s.finish = unmet r)) ∧
        (∀ p, s.grantTier e = 0 → passable e → begins e p → s.alloc.earmark = 0 →
          s.finish = (s.beginReclaim e (s.shortfall e).toNat p).finish) ∧
        (∀ t, s.grantTier e = t → 1 ≤ t → s.finish.entryOf e.slot = none ∧
          s.finish.leaseOf e.slot = (s.grant e t).leaseOf e.slot ∧
          (s.grant e t).notices.records <+: s.finish.notices.records ∧
          (s.leaseOf e.slot = none → (s.policyOf e.slot).cls = .essential → s.power.holder = none → s.power.hold = false →
            (∀ j ∈ s.power.queue, (s.rampOf j).cls = .deferrable) →
            s.finish.power.holder = some e.slot ∧ (s.finish.sessOf e.slot).state = .ramping))))

/-- The grant tier of an entry (R39): the highest tier of its range, above the granted one on an ON lease, whose draw the cap
allows and whose need the budget covers; and what the grant of a tier does (R40, R10, R14): among it, the pass count of every eligible entry ahead rises
by 1, up to PASS_LIMIT, and no other (R41). That RECLAIM_END follows GRANTED is the model's choice (log entry 17). -/
def Obligations.AGrantIsTheHighestTierThatFits : Prop :=
  ∀ (s : State) (e : Entry) (t : Nat),
    let k := e.slot
    let granted := (s.leaseOf k).elim 0 Lease.tier
    let budget : Int := if s.isBeneficiary k = true then s.free + s.alloc.earmark else s.free
    let ok := fun (n : Nat) => e.least ≤ n ∧ granted < n ∧ s.drawOf k n ≤ (s.policyOf k).cap ∧
      (max (s.floorOf k) (s.drawOf k n) : Nat) - (s.commitment k : Int) ≤ budget
    (s.grantTier e = t → 1 ≤ t → t ≤ e.wanted ∧ ok t ∧ ∀ n, t < n → n ≤ e.wanted → ¬ ok n) ∧
    (s.grantTier e = 0 → ∀ n, 1 ≤ n → n ≤ e.wanted → ¬ ok n) ∧
    (let u := s.grant e t
     (∀ ahead behind, s.alloc.queue = ahead ++ e :: behind → (∀ x ∈ ahead ++ behind, x.slot ≠ k) →
       u.alloc.queue = ahead.map (fun x =>
         if (s.lineOf x.slot).lost = false ∧ (s.leaseOf x.slot).all (fun l => l.trans.isNone) = true ∧
             x.passCount < s.settings.passLimit then { x with passCount := x.passCount + 1 } else x) ++ behind) ∧
     s.HostSame u ∧ u.entryOf k = none ∧ (∀ j, j ≠ k → (u.entryOf j).isSome = (s.entryOf j).isSome) ∧
     u.alloc.reclaim = (if s.isBeneficiary k = true then none else s.alloc.reclaim) ∧
     u.alloc.earmark = (if s.isBeneficiary k = true then 0 else s.alloc.earmark) ∧
     u.notices = (let q := s.notices.take .granted (some k) e.origin.reason (decide (t < e.wanted)) t
       if s.isBeneficiary k = true then q.take .reclaimEnd (some k) .preempt false 1 else q) ∧
     (∀ l, s.leaseOf k = some l →
       u.leaseOf k = some { l with trans := some (.raise t (s.drawOf k t) e.origin) } ∧ u.sess = s.sess ∧ u.power = s.power ∧
       (u.lineOf k).outClaim = some (.grant t (decide (t < e.wanted)))) ∧
     (s.leaseOf k = none →
       u.leaseOf k = some ⟨(s.sessOf k).tag, t, s.drawOf k t, decide (t < e.wanted), none⟩ ∧
       (u.sessOf k).state = .rampWait ∧ k ∈ u.power.queue ∧
       u.rampOf k = { s.rampOf k with
         state := .queued, tag := (s.sessOf k).tag, cls := (s.policyOf k).cls, retry := 0, timer := 0 } ∧
       (u.lineOf k).outSession = (s.lineOf k).outSession ∧
       (∀ n, (u.lineOf k).outClaim ≠ some (.hold n)) ∧
       u.alloc.committed = s.alloc.committed + max (s.floorOf k) (s.drawOf k t) - s.commitment k))

/-- The shedding order, the candidate victims and the plan of a reclaim (R62, R57, R58): the slots valued least come first, every
candidate on the way with anything to give is lowered to tier 1, and the last no further than the shortfall asks; there is no
plan exactly when tier 1 everywhere would not cover it. What the begin of a reclaim does (R59): the record is filled, every
planned recall stands with origin PREEMPT, RECALL_ISSUED is posted for each and RECLAIM_BEGIN after them, and no budget quantity
moves. -/
def Obligations.AReclaimPlanCoversTheShortfall : Prop :=
  ∀ (s : State) (short : Int), 0 < short →
    let free1 := fun (k : Slot) (t : Nat) => (s.commitment k : Int) - (max (s.floorOf k) (s.drawOf k t) : Nat)
    let before := fun (i j : Slot) =>
      (s.policyOf i).cls = .deferrable ∧ (s.policyOf j).cls = .essential ∨ (s.policyOf i).cls = (s.policyOf j).cls ∧
        ((s.policyOf i).rank < (s.policyOf j).rank ∨ (s.policyOf i).rank = (s.policyOf j).rank ∧ j < i)
    let candidates := s.shedOrder.filter s.candidate
    s.shedOrder.Pairwise before ∧ (∀ k, k ∈ s.shedOrder) ∧
    (∀ k, k ∈ candidates ↔ ∃ l, s.leaseOf k = some l ∧ (s.sessOf k).state = .on ∧ (s.policyOf k).cls = .deferrable ∧
      l.trans = none ∧ (s.lineOf k).lost = false ∧ 2 ≤ l.tier) ∧
    (∀ plan, s.reclaimPlan candidates short = some plan → ∃ init k t,
      plan = init ++ [(k, t)] ∧ (plan.map Prod.fst).Pairwise before ∧
      (∀ p ∈ plan, p.1 ∈ candidates ∧ 1 ≤ p.2 ∧ p.2 < s.grantedTier p.1 ∧ 0 < free1 p.1 p.2) ∧ (∀ p ∈ init, p.2 = 1) ∧
      (∀ j ∈ candidates, before j k → 0 < free1 j 1 → (j, 1) ∈ init) ∧
      (init.map (fun p => free1 p.1 p.2)).sum < short ∧ short ≤ (plan.map (fun p => free1 p.1 p.2)).sum ∧
      (∀ n, t < n → n < s.grantedTier k → (init.map (fun p => free1 p.1 p.2)).sum + free1 k n < short)) ∧
    (∀ (plan : List (Slot × Nat)) (e : Entry) (n : Nat), s.reclaimPlan candidates short = some plan →
      let u := s.beginReclaim e n plan
      u.alloc.reclaim = some ⟨e.slot, e.tag, n, plan.map Prod.fst⟩ ∧ u.alloc.committed = s.alloc.committed ∧
      u.alloc.earmark = s.alloc.earmark ∧ u.alloc.queue = s.alloc.queue ∧ u.alloc.state = s.alloc.state ∧
      u.alloc.passDue = s.alloc.passDue ∧ u.sess = s.sess ∧ u.power = s.power ∧ u.mon = s.mon ∧ s.HostSame u ∧
      u.raised = s.raised ∧
      (∀ p ∈ plan, ∀ l, s.leaseOf p.1 = some l →
        u.leaseOf p.1 = some { l with
          trans := some (.lower p.2 (s.drawOf p.1 p.2) .preempt (s.settings.settleTime * 10)) } ∧
        (u.lineOf p.1).outRecall = some (.recall p.2 (max 1 s.settings.settleTime)) ∧ u.isVictim p.1 = true) ∧
      (∀ k, k ∉ plan.map Prod.fst → s.SameSlot u k) ∧
      u.notices = (plan.foldl (fun q p => q.take .recallIssued (some p.1) .preempt false p.2) s.notices).take
        .reclaimBegin (some e.slot) .preempt false n) ∧
    (s.reclaimPlan candidates short = none ↔ (candidates.map (fun k => max 0 (free1 k 1))).sum < short)

/-! ### The laws every step keeps -/

/-- R4, R65, R56: committed is the sum of the commitments; earmark is 0 without a reclaim and never above its shortfall; the
reclaim's beneficiary holds its entry, and each victim a LOWER in flight. -/
def Obligations.EveryStepKeepsTheCounters : Prop :=
  ∀ s t : State, s.LoadLaw → s.CommittedLaw → s.EarmarkLaw → s.ReclaimLaw → step s = .next t →
    t.LoadLaw ∧ t.CommittedLaw ∧ t.EarmarkLaw ∧ t.ReclaimLaw

/-- R2, R142, R143, R43, R172: the live policy stays one that a VALID copy could hold, its floors within available; no pass
count exceeds PASS_LIMIT; the Notice Queue stays within 32 records and LOST within 255. -/
def Obligations.EveryStepKeepsPolicyPassCountsAndNotices : Prop :=
  ∀ s t : State, s.LoadLaw → s.PolicyLaw → s.PassLaw → s.NoticeLaw → step s = .next t →
    t.PolicyLaw ∧ t.PassLaw ∧ t.NoticeLaw

/-- R23, R24: one Demand Queue entry for each slot at most, in the order of class and rank. -/
def Obligations.EveryStepKeepsTheQueueOrder : Prop :=
  ∀ s t : State, s.LoadLaw → s.EntryLaw → s.OrderLaw → step s = .next t → t.EntryLaw ∧ t.OrderLaw

/-- R9, R23, R36, R74, R116, R117, R118, R71: lease, gate, aux rail, ramp record, Ramp Queue, ramp resource and Demand Queue entry of
every slot agree with its session state, the Ramp Queue holds no DEFERRABLE slot ahead of an ESSENTIAL one, and nothing is left
undone. -/
def Obligations.EveryStepKeepsTheBlocksInAgreement : Prop :=
  ∀ s t : State, s.LoadLaw → s.EntryLaw → s.Settled → s.Coherent → step s = .next t → t.Settled ∧ t.Coherent

/-- R13, R22, R80: tiers lie in the session's list, draws are the list's, RAISE targets lie above and LOWER targets below. -/
def Obligations.EveryStepKeepsTheTiersInTheList : Prop :=
  ∀ s t : State, s.LoadLaw → s.EntryLaw → s.Settled → s.Coherent → s.TierLaw → step s = .next t → t.TierLaw

/-- R8, R70: committed plus earmark stays within available, except while the Allocator is in SHEDDING, where no reclaim is active. -/
def Obligations.EveryStepKeepsTheBudget : Prop := ∀ s t : State, s.Lawful → step s = .next t → t.BudgetLaw
end

