-- ==== Sys2Proof/Laws/State.lean ====
section
/-! SUPPORT. One lemma for each field of each update, true by rfl, so that no later proof unfolds a record update. -/

namespace Sys2Proof

@[simp] theorem PerSlot.get_set_self {α : Type} (v : PerSlot α) (k : Slot) (x : α) : (v.set k x).get k = x := by
  fin_cases k <;> rfl

theorem PerSlot.get_set_ne {α : Type} (v : PerSlot α) {j k : Slot} (x : α) (h : j ≠ k) : (v.set k x).get j = v.get j := by
  fin_cases k <;> fin_cases j <;> first | rfl | exact absurd rfl h

theorem PerSlot.get_set {α : Type} (v : PerSlot α) (j k : Slot) (x : α) :
    (v.set k x).get j = if j = k then x else v.get j := by
  split
  · subst_vars; exact PerSlot.get_set_self v _ x
  · exact PerSlot.get_set_ne v x ‹_›

@[simp] theorem PerSlot.get_all {α : Type} (x : α) (k : Slot) : (PerSlot.all x).get k = x := by fin_cases k <;> rfl

@[simp] theorem PerSlot.get_map {α β : Type} (f : α → β) (v : PerSlot α) (k : Slot) : (v.map f).get k = f (v.get k) := by
  fin_cases k <;> rfl

@[simp] theorem PerSlot.get_tabulate {α : Type} (f : Slot → α) (k : Slot) : (PerSlot.tabulate f).get k = f k := by
  fin_cases k <;> rfl

theorem PerSlot.ext_get {α : Type} {v w : PerSlot α} (h : ∀ k, v.get k = w.get k) : v = w := by
  have h0 := h 0; have h1 := h 1; have h2 := h 2; have h3 := h 3
  have h4 := h 4; have h5 := h 5; have h6 := h 6; have h7 := h 7
  cases v; cases w; simp_all [PerSlot.get]

theorem mem_allSlots (k : Slot) : k ∈ allSlots := by fin_cases k <;> decide

end Sys2Proof

namespace Sys2Proof.Machine

variable (s : State) (k : Slot)

/-! ### modSess -/

@[simp] theorem State.modSess_host (f : Session → Session) : (State.modSess k f s).host = s.host := rfl
@[simp] theorem State.modSess_cmd (f : Session → Session) : (State.modSess k f s).cmd = s.cmd := rfl
@[simp] theorem State.modSess_alloc (f : Session → Session) : (State.modSess k f s).alloc = s.alloc := rfl
@[simp] theorem State.modSess_line (f : Session → Session) : (State.modSess k f s).line = s.line := rfl
@[simp] theorem State.modSess_power (f : Session → Session) : (State.modSess k f s).power = s.power := rfl
@[simp] theorem State.modSess_mon (f : Session → Session) : (State.modSess k f s).mon = s.mon := rfl
@[simp] theorem State.modSess_store (f : Session → Session) : (State.modSess k f s).store = s.store := rfl
@[simp] theorem State.modSess_notices (f : Session → Session) : (State.modSess k f s).notices = s.notices := rfl
@[simp] theorem State.modSess_present (f : Session → Session) : (State.modSess k f s).present = s.present := rfl
@[simp] theorem State.modSess_raised (f : Session → Session) : (State.modSess k f s).raised = s.raised := rfl
@[simp] theorem State.modSess_pending (f : Session → Session) : (State.modSess k f s).pending = s.pending := rfl

/-! ### modLine -/

@[simp] theorem State.modLine_host (f : Line → Line) : (State.modLine k f s).host = s.host := rfl
@[simp] theorem State.modLine_cmd (f : Line → Line) : (State.modLine k f s).cmd = s.cmd := rfl
@[simp] theorem State.modLine_alloc (f : Line → Line) : (State.modLine k f s).alloc = s.alloc := rfl
@[simp] theorem State.modLine_sess (f : Line → Line) : (State.modLine k f s).sess = s.sess := rfl
@[simp] theorem State.modLine_power (f : Line → Line) : (State.modLine k f s).power = s.power := rfl
@[simp] theorem State.modLine_mon (f : Line → Line) : (State.modLine k f s).mon = s.mon := rfl
@[simp] theorem State.modLine_store (f : Line → Line) : (State.modLine k f s).store = s.store := rfl
@[simp] theorem State.modLine_notices (f : Line → Line) : (State.modLine k f s).notices = s.notices := rfl
@[simp] theorem State.modLine_present (f : Line → Line) : (State.modLine k f s).present = s.present := rfl
@[simp] theorem State.modLine_raised (f : Line → Line) : (State.modLine k f s).raised = s.raised := rfl
@[simp] theorem State.modLine_pending (f : Line → Line) : (State.modLine k f s).pending = s.pending := rfl

/-! ### modRamp -/

@[simp] theorem State.modRamp_host (f : Ramp → Ramp) : (State.modRamp k f s).host = s.host := rfl
@[simp] theorem State.modRamp_cmd (f : Ramp → Ramp) : (State.modRamp k f s).cmd = s.cmd := rfl
@[simp] theorem State.modRamp_alloc (f : Ramp → Ramp) : (State.modRamp k f s).alloc = s.alloc := rfl
@[simp] theorem State.modRamp_sess (f : Ramp → Ramp) : (State.modRamp k f s).sess = s.sess := rfl
@[simp] theorem State.modRamp_line (f : Ramp → Ramp) : (State.modRamp k f s).line = s.line := rfl
@[simp] theorem State.modRamp_mon (f : Ramp → Ramp) : (State.modRamp k f s).mon = s.mon := rfl
@[simp] theorem State.modRamp_store (f : Ramp → Ramp) : (State.modRamp k f s).store = s.store := rfl
@[simp] theorem State.modRamp_notices (f : Ramp → Ramp) : (State.modRamp k f s).notices = s.notices := rfl
@[simp] theorem State.modRamp_present (f : Ramp → Ramp) : (State.modRamp k f s).present = s.present := rfl
@[simp] theorem State.modRamp_raised (f : Ramp → Ramp) : (State.modRamp k f s).raised = s.raised := rfl
@[simp] theorem State.modRamp_pending (f : Ramp → Ramp) : (State.modRamp k f s).pending = s.pending := rfl

/-! ### modMon -/

@[simp] theorem State.modMon_host (f : MonSlot → MonSlot) : (State.modMon k f s).host = s.host := rfl
@[simp] theorem State.modMon_cmd (f : MonSlot → MonSlot) : (State.modMon k f s).cmd = s.cmd := rfl
@[simp] theorem State.modMon_alloc (f : MonSlot → MonSlot) : (State.modMon k f s).alloc = s.alloc := rfl
@[simp] theorem State.modMon_sess (f : MonSlot → MonSlot) : (State.modMon k f s).sess = s.sess := rfl
@[simp] theorem State.modMon_line (f : MonSlot → MonSlot) : (State.modMon k f s).line = s.line := rfl
@[simp] theorem State.modMon_power (f : MonSlot → MonSlot) : (State.modMon k f s).power = s.power := rfl
@[simp] theorem State.modMon_store (f : MonSlot → MonSlot) : (State.modMon k f s).store = s.store := rfl
@[simp] theorem State.modMon_notices (f : MonSlot → MonSlot) : (State.modMon k f s).notices = s.notices := rfl
@[simp] theorem State.modMon_present (f : MonSlot → MonSlot) : (State.modMon k f s).present = s.present := rfl
@[simp] theorem State.modMon_raised (f : MonSlot → MonSlot) : (State.modMon k f s).raised = s.raised := rfl
@[simp] theorem State.modMon_pending (f : MonSlot → MonSlot) : (State.modMon k f s).pending = s.pending := rfl

/-! ### modHost -/

@[simp] theorem State.modHost_cmd (f : HostPort → HostPort) : (State.modHost f s).cmd = s.cmd := rfl
@[simp] theorem State.modHost_alloc (f : HostPort → HostPort) : (State.modHost f s).alloc = s.alloc := rfl
@[simp] theorem State.modHost_sess (f : HostPort → HostPort) : (State.modHost f s).sess = s.sess := rfl
@[simp] theorem State.modHost_line (f : HostPort → HostPort) : (State.modHost f s).line = s.line := rfl
@[simp] theorem State.modHost_power (f : HostPort → HostPort) : (State.modHost f s).power = s.power := rfl
@[simp] theorem State.modHost_mon (f : HostPort → HostPort) : (State.modHost f s).mon = s.mon := rfl
@[simp] theorem State.modHost_store (f : HostPort → HostPort) : (State.modHost f s).store = s.store := rfl
@[simp] theorem State.modHost_notices (f : HostPort → HostPort) : (State.modHost f s).notices = s.notices := rfl
@[simp] theorem State.modHost_present (f : HostPort → HostPort) : (State.modHost f s).present = s.present := rfl
@[simp] theorem State.modHost_raised (f : HostPort → HostPort) : (State.modHost f s).raised = s.raised := rfl
@[simp] theorem State.modHost_pending (f : HostPort → HostPort) : (State.modHost f s).pending = s.pending := rfl

/-! ### modSettings -/

@[simp] theorem State.modSettings_host (f : Settings → Settings) : (State.modSettings f s).host = s.host := rfl
@[simp] theorem State.modSettings_alloc (f : Settings → Settings) : (State.modSettings f s).alloc = s.alloc := rfl
@[simp] theorem State.modSettings_sess (f : Settings → Settings) : (State.modSettings f s).sess = s.sess := rfl
@[simp] theorem State.modSettings_line (f : Settings → Settings) : (State.modSettings f s).line = s.line := rfl
@[simp] theorem State.modSettings_power (f : Settings → Settings) : (State.modSettings f s).power = s.power := rfl
@[simp] theorem State.modSettings_mon (f : Settings → Settings) : (State.modSettings f s).mon = s.mon := rfl
@[simp] theorem State.modSettings_store (f : Settings → Settings) : (State.modSettings f s).store = s.store := rfl
@[simp] theorem State.modSettings_notices (f : Settings → Settings) : (State.modSettings f s).notices = s.notices := rfl
@[simp] theorem State.modSettings_present (f : Settings → Settings) : (State.modSettings f s).present = s.present := rfl
@[simp] theorem State.modSettings_raised (f : Settings → Settings) : (State.modSettings f s).raised = s.raised := rfl
@[simp] theorem State.modSettings_pending (f : Settings → Settings) : (State.modSettings f s).pending = s.pending := rfl

/-! ### modStore -/

@[simp] theorem State.modStore_host (f : PolicyStore → PolicyStore) : (State.modStore f s).host = s.host := rfl
@[simp] theorem State.modStore_cmd (f : PolicyStore → PolicyStore) : (State.modStore f s).cmd = s.cmd := rfl
@[simp] theorem State.modStore_alloc (f : PolicyStore → PolicyStore) : (State.modStore f s).alloc = s.alloc := rfl
@[simp] theorem State.modStore_sess (f : PolicyStore → PolicyStore) : (State.modStore f s).sess = s.sess := rfl
@[simp] theorem State.modStore_line (f : PolicyStore → PolicyStore) : (State.modStore f s).line = s.line := rfl
@[simp] theorem State.modStore_power (f : PolicyStore → PolicyStore) : (State.modStore f s).power = s.power := rfl
@[simp] theorem State.modStore_mon (f : PolicyStore → PolicyStore) : (State.modStore f s).mon = s.mon := rfl
@[simp] theorem State.modStore_notices (f : PolicyStore → PolicyStore) : (State.modStore f s).notices = s.notices := rfl
@[simp] theorem State.modStore_present (f : PolicyStore → PolicyStore) : (State.modStore f s).present = s.present := rfl
@[simp] theorem State.modStore_raised (f : PolicyStore → PolicyStore) : (State.modStore f s).raised = s.raised := rfl
@[simp] theorem State.modStore_pending (f : PolicyStore → PolicyStore) : (State.modStore f s).pending = s.pending := rfl

/-! ### withQueue -/

@[simp] theorem State.withQueue_host (q : List Entry) : (State.withQueue q s).host = s.host := rfl
@[simp] theorem State.withQueue_cmd (q : List Entry) : (State.withQueue q s).cmd = s.cmd := rfl
@[simp] theorem State.withQueue_sess (q : List Entry) : (State.withQueue q s).sess = s.sess := rfl
@[simp] theorem State.withQueue_line (q : List Entry) : (State.withQueue q s).line = s.line := rfl
@[simp] theorem State.withQueue_power (q : List Entry) : (State.withQueue q s).power = s.power := rfl
@[simp] theorem State.withQueue_mon (q : List Entry) : (State.withQueue q s).mon = s.mon := rfl
@[simp] theorem State.withQueue_store (q : List Entry) : (State.withQueue q s).store = s.store := rfl
@[simp] theorem State.withQueue_notices (q : List Entry) : (State.withQueue q s).notices = s.notices := rfl
@[simp] theorem State.withQueue_present (q : List Entry) : (State.withQueue q s).present = s.present := rfl
@[simp] theorem State.withQueue_raised (q : List Entry) : (State.withQueue q s).raised = s.raised := rfl
@[simp] theorem State.withQueue_pending (q : List Entry) : (State.withQueue q s).pending = s.pending := rfl

/-! ### wantPass -/

@[simp] theorem State.wantPass_host (b : Bool) : (State.wantPass b s).host = s.host := rfl
@[simp] theorem State.wantPass_cmd (b : Bool) : (State.wantPass b s).cmd = s.cmd := rfl
@[simp] theorem State.wantPass_sess (b : Bool) : (State.wantPass b s).sess = s.sess := rfl
@[simp] theorem State.wantPass_line (b : Bool) : (State.wantPass b s).line = s.line := rfl
@[simp] theorem State.wantPass_power (b : Bool) : (State.wantPass b s).power = s.power := rfl
@[simp] theorem State.wantPass_mon (b : Bool) : (State.wantPass b s).mon = s.mon := rfl
@[simp] theorem State.wantPass_store (b : Bool) : (State.wantPass b s).store = s.store := rfl
@[simp] theorem State.wantPass_notices (b : Bool) : (State.wantPass b s).notices = s.notices := rfl
@[simp] theorem State.wantPass_present (b : Bool) : (State.wantPass b s).present = s.present := rfl
@[simp] theorem State.wantPass_raised (b : Bool) : (State.wantPass b s).raised = s.raised := rfl
@[simp] theorem State.wantPass_pending (b : Bool) : (State.wantPass b s).pending = s.pending := rfl

/-! ### taken -/

@[simp] theorem State.taken_host (c : Instr) : (State.taken c s).host = s.host := rfl
@[simp] theorem State.taken_cmd (c : Instr) : (State.taken c s).cmd = s.cmd := rfl
@[simp] theorem State.taken_alloc (c : Instr) : (State.taken c s).alloc = s.alloc := rfl
@[simp] theorem State.taken_sess (c : Instr) : (State.taken c s).sess = s.sess := rfl
@[simp] theorem State.taken_line (c : Instr) : (State.taken c s).line = s.line := rfl
@[simp] theorem State.taken_power (c : Instr) : (State.taken c s).power = s.power := rfl
@[simp] theorem State.taken_mon (c : Instr) : (State.taken c s).mon = s.mon := rfl
@[simp] theorem State.taken_store (c : Instr) : (State.taken c s).store = s.store := rfl
@[simp] theorem State.taken_notices (c : Instr) : (State.taken c s).notices = s.notices := rfl
@[simp] theorem State.taken_present (c : Instr) : (State.taken c s).present = s.present := rfl
@[simp] theorem State.taken_pending (c : Instr) : (State.taken c s).pending = s.pending := rfl

/-! ### post -/

@[simp] theorem State.post_host (n : NoticeKind) (o : Option Slot) (r : Reason) (v : Nat) : (State.post n o r v s).host = s.host := rfl
@[simp] theorem State.post_cmd (n : NoticeKind) (o : Option Slot) (r : Reason) (v : Nat) : (State.post n o r v s).cmd = s.cmd := rfl
@[simp] theorem State.post_alloc (n : NoticeKind) (o : Option Slot) (r : Reason) (v : Nat) : (State.post n o r v s).alloc = s.alloc := rfl
@[simp] theorem State.post_sess (n : NoticeKind) (o : Option Slot) (r : Reason) (v : Nat) : (State.post n o r v s).sess = s.sess := rfl
@[simp] theorem State.post_line (n : NoticeKind) (o : Option Slot) (r : Reason) (v : Nat) : (State.post n o r v s).line = s.line := rfl
@[simp] theorem State.post_power (n : NoticeKind) (o : Option Slot) (r : Reason) (v : Nat) : (State.post n o r v s).power = s.power := rfl
@[simp] theorem State.post_mon (n : NoticeKind) (o : Option Slot) (r : Reason) (v : Nat) : (State.post n o r v s).mon = s.mon := rfl
@[simp] theorem State.post_store (n : NoticeKind) (o : Option Slot) (r : Reason) (v : Nat) : (State.post n o r v s).store = s.store := rfl
@[simp] theorem State.post_present (n : NoticeKind) (o : Option Slot) (r : Reason) (v : Nat) : (State.post n o r v s).present = s.present := rfl
@[simp] theorem State.post_raised (n : NoticeKind) (o : Option Slot) (r : Reason) (v : Nat) : (State.post n o r v s).raised = s.raised := rfl
@[simp] theorem State.post_pending (n : NoticeKind) (o : Option Slot) (r : Reason) (v : Nat) : (State.post n o r v s).pending = s.pending := rfl

/-! ### postGranted -/

@[simp] theorem State.postGranted_host (r : Reason) (b : Bool) (v : Nat) : (State.postGranted k r b v s).host = s.host := rfl
@[simp] theorem State.postGranted_cmd (r : Reason) (b : Bool) (v : Nat) : (State.postGranted k r b v s).cmd = s.cmd := rfl
@[simp] theorem State.postGranted_alloc (r : Reason) (b : Bool) (v : Nat) : (State.postGranted k r b v s).alloc = s.alloc := rfl
@[simp] theorem State.postGranted_sess (r : Reason) (b : Bool) (v : Nat) : (State.postGranted k r b v s).sess = s.sess := rfl
@[simp] theorem State.postGranted_line (r : Reason) (b : Bool) (v : Nat) : (State.postGranted k r b v s).line = s.line := rfl
@[simp] theorem State.postGranted_power (r : Reason) (b : Bool) (v : Nat) : (State.postGranted k r b v s).power = s.power := rfl
@[simp] theorem State.postGranted_mon (r : Reason) (b : Bool) (v : Nat) : (State.postGranted k r b v s).mon = s.mon := rfl
@[simp] theorem State.postGranted_store (r : Reason) (b : Bool) (v : Nat) : (State.postGranted k r b v s).store = s.store := rfl
@[simp] theorem State.postGranted_present (r : Reason) (b : Bool) (v : Nat) : (State.postGranted k r b v s).present = s.present := rfl
@[simp] theorem State.postGranted_raised (r : Reason) (b : Bool) (v : Nat) : (State.postGranted k r b v s).raised = s.raised := rfl
@[simp] theorem State.postGranted_pending (r : Reason) (b : Bool) (v : Nat) : (State.postGranted k r b v s).pending = s.pending := rfl

/-! ### setLease -/

@[simp] theorem State.setLease_host (l : Option Lease) : (State.setLease k l s).host = s.host := rfl
@[simp] theorem State.setLease_cmd (l : Option Lease) : (State.setLease k l s).cmd = s.cmd := rfl
@[simp] theorem State.setLease_sess (l : Option Lease) : (State.setLease k l s).sess = s.sess := rfl
@[simp] theorem State.setLease_line (l : Option Lease) : (State.setLease k l s).line = s.line := rfl
@[simp] theorem State.setLease_power (l : Option Lease) : (State.setLease k l s).power = s.power := rfl
@[simp] theorem State.setLease_mon (l : Option Lease) : (State.setLease k l s).mon = s.mon := rfl
@[simp] theorem State.setLease_store (l : Option Lease) : (State.setLease k l s).store = s.store := rfl
@[simp] theorem State.setLease_notices (l : Option Lease) : (State.setLease k l s).notices = s.notices := rfl
@[simp] theorem State.setLease_present (l : Option Lease) : (State.setLease k l s).present = s.present := rfl
@[simp] theorem State.setLease_raised (l : Option Lease) : (State.setLease k l s).raised = s.raised := rfl
@[simp] theorem State.setLease_pending (l : Option Lease) : (State.setLease k l s).pending = s.pending := rfl

/-! ### setPolicy -/

@[simp] theorem State.setPolicy_host (r : PolicyRecord) : (State.setPolicy k r s).host = s.host := rfl
@[simp] theorem State.setPolicy_sess (r : PolicyRecord) : (State.setPolicy k r s).sess = s.sess := rfl
@[simp] theorem State.setPolicy_line (r : PolicyRecord) : (State.setPolicy k r s).line = s.line := rfl
@[simp] theorem State.setPolicy_power (r : PolicyRecord) : (State.setPolicy k r s).power = s.power := rfl
@[simp] theorem State.setPolicy_mon (r : PolicyRecord) : (State.setPolicy k r s).mon = s.mon := rfl
@[simp] theorem State.setPolicy_store (r : PolicyRecord) : (State.setPolicy k r s).store = s.store := rfl
@[simp] theorem State.setPolicy_notices (r : PolicyRecord) : (State.setPolicy k r s).notices = s.notices := rfl
@[simp] theorem State.setPolicy_present (r : PolicyRecord) : (State.setPolicy k r s).present = s.present := rfl
@[simp] theorem State.setPolicy_raised (r : PolicyRecord) : (State.setPolicy k r s).raised = s.raised := rfl
@[simp] theorem State.setPolicy_pending (r : PolicyRecord) : (State.setPolicy k r s).pending = s.pending := rfl

/-! ### drive -/

@[simp] theorem State.drive_cmd (w : Word) : (State.drive w s).cmd = s.cmd := rfl
@[simp] theorem State.drive_alloc (w : Word) : (State.drive w s).alloc = s.alloc := rfl
@[simp] theorem State.drive_sess (w : Word) : (State.drive w s).sess = s.sess := rfl
@[simp] theorem State.drive_line (w : Word) : (State.drive w s).line = s.line := rfl
@[simp] theorem State.drive_power (w : Word) : (State.drive w s).power = s.power := rfl
@[simp] theorem State.drive_mon (w : Word) : (State.drive w s).mon = s.mon := rfl
@[simp] theorem State.drive_store (w : Word) : (State.drive w s).store = s.store := rfl
@[simp] theorem State.drive_notices (w : Word) : (State.drive w s).notices = s.notices := rfl
@[simp] theorem State.drive_present (w : Word) : (State.drive w s).present = s.present := rfl
@[simp] theorem State.drive_raised (w : Word) : (State.drive w s).raised = s.raised := rfl
@[simp] theorem State.drive_pending (w : Word) : (State.drive w s).pending = s.pending := rfl

/-! ### complete -/

@[simp] theorem State.complete_alloc (r : CmdResult) : (State.complete r s).alloc = s.alloc := rfl
@[simp] theorem State.complete_sess (r : CmdResult) : (State.complete r s).sess = s.sess := rfl
@[simp] theorem State.complete_line (r : CmdResult) : (State.complete r s).line = s.line := rfl
@[simp] theorem State.complete_power (r : CmdResult) : (State.complete r s).power = s.power := rfl
@[simp] theorem State.complete_mon (r : CmdResult) : (State.complete r s).mon = s.mon := rfl
@[simp] theorem State.complete_store (r : CmdResult) : (State.complete r s).store = s.store := rfl
@[simp] theorem State.complete_notices (r : CmdResult) : (State.complete r s).notices = s.notices := rfl
@[simp] theorem State.complete_present (r : CmdResult) : (State.complete r s).present = s.present := rfl
@[simp] theorem State.complete_raised (r : CmdResult) : (State.complete r s).raised = s.raised := rfl
@[simp] theorem State.complete_pending (r : CmdResult) : (State.complete r s).pending = s.pending := rfl

/-! ### Parts of the Allocator -/

@[simp] theorem State.withQueue_alloc_committed (q : List Entry) : (State.withQueue q s).alloc.committed = s.alloc.committed := rfl
@[simp] theorem State.withQueue_alloc_earmark (q : List Entry) : (State.withQueue q s).alloc.earmark = s.alloc.earmark := rfl
@[simp] theorem State.withQueue_alloc_leases (q : List Entry) : (State.withQueue q s).alloc.leases = s.alloc.leases := rfl
@[simp] theorem State.withQueue_alloc_state (q : List Entry) : (State.withQueue q s).alloc.state = s.alloc.state := rfl
@[simp] theorem State.withQueue_alloc_sagCondition (q : List Entry) : (State.withQueue q s).alloc.sagCondition = s.alloc.sagCondition := rfl
@[simp] theorem State.withQueue_alloc_reclaim (q : List Entry) : (State.withQueue q s).alloc.reclaim = s.alloc.reclaim := rfl
@[simp] theorem State.withQueue_alloc_passDue (q : List Entry) : (State.withQueue q s).alloc.passDue = s.alloc.passDue := rfl
@[simp] theorem State.withQueue_alloc_queue (q : List Entry) : (State.withQueue q s).alloc.queue = q := rfl
@[simp] theorem State.wantPass_alloc_committed (b : Bool) : (State.wantPass b s).alloc.committed = s.alloc.committed := rfl
@[simp] theorem State.wantPass_alloc_earmark (b : Bool) : (State.wantPass b s).alloc.earmark = s.alloc.earmark := rfl
@[simp] theorem State.wantPass_alloc_leases (b : Bool) : (State.wantPass b s).alloc.leases = s.alloc.leases := rfl
@[simp] theorem State.wantPass_alloc_queue (b : Bool) : (State.wantPass b s).alloc.queue = s.alloc.queue := rfl
@[simp] theorem State.wantPass_alloc_state (b : Bool) : (State.wantPass b s).alloc.state = s.alloc.state := rfl
@[simp] theorem State.wantPass_alloc_sagCondition (b : Bool) : (State.wantPass b s).alloc.sagCondition = s.alloc.sagCondition := rfl
@[simp] theorem State.wantPass_alloc_reclaim (b : Bool) : (State.wantPass b s).alloc.reclaim = s.alloc.reclaim := rfl
@[simp] theorem State.wantPass_alloc_passDue (b : Bool) : (State.wantPass b s).alloc.passDue = (s.alloc.passDue || b) := rfl
@[simp] theorem State.setLease_alloc_earmark (l : Option Lease) : (State.setLease k l s).alloc.earmark = s.alloc.earmark := rfl
@[simp] theorem State.setLease_alloc_queue (l : Option Lease) : (State.setLease k l s).alloc.queue = s.alloc.queue := rfl
@[simp] theorem State.setLease_alloc_state (l : Option Lease) : (State.setLease k l s).alloc.state = s.alloc.state := rfl
@[simp] theorem State.setLease_alloc_sagCondition (l : Option Lease) : (State.setLease k l s).alloc.sagCondition = s.alloc.sagCondition := rfl
@[simp] theorem State.setLease_alloc_reclaim (l : Option Lease) : (State.setLease k l s).alloc.reclaim = s.alloc.reclaim := rfl
@[simp] theorem State.setLease_alloc_leases (l : Option Lease) : (State.setLease k l s).alloc.leases = s.alloc.leases.set k l := rfl
@[simp] theorem State.setPolicy_alloc_earmark (r : PolicyRecord) : (State.setPolicy k r s).alloc.earmark = s.alloc.earmark := rfl
@[simp] theorem State.setPolicy_alloc_leases (r : PolicyRecord) : (State.setPolicy k r s).alloc.leases = s.alloc.leases := rfl
@[simp] theorem State.setPolicy_alloc_queue (r : PolicyRecord) : (State.setPolicy k r s).alloc.queue = s.alloc.queue := rfl
@[simp] theorem State.setPolicy_alloc_state (r : PolicyRecord) : (State.setPolicy k r s).alloc.state = s.alloc.state := rfl
@[simp] theorem State.setPolicy_alloc_sagCondition (r : PolicyRecord) : (State.setPolicy k r s).alloc.sagCondition = s.alloc.sagCondition := rfl
@[simp] theorem State.setPolicy_alloc_reclaim (r : PolicyRecord) : (State.setPolicy k r s).alloc.reclaim = s.alloc.reclaim := rfl
@[simp] theorem State.setPolicy_settings (r : PolicyRecord) : (State.setPolicy k r s).settings = s.settings := rfl
@[simp] theorem State.setPolicy_cmd_policy (r : PolicyRecord) :
    (State.setPolicy k r s).cmd.policy = s.cmd.policy.set k r := rfl

/-! ### What an accessor reads after an update of its own part -/

@[simp] theorem State.modSess_sess (f : Session → Session) : (State.modSess k f s).sess = s.sess.set k (f (s.sess.get k)) := rfl
@[simp] theorem State.modLine_line (f : Line → Line) : (State.modLine k f s).line = s.line.set k (f (s.line.get k)) := rfl
@[simp] theorem State.modRamp_slots (f : Ramp → Ramp) :
    (State.modRamp k f s).power.slots = s.power.slots.set k (f (s.power.slots.get k)) := rfl
@[simp] theorem State.modRamp_queue (f : Ramp → Ramp) : (State.modRamp k f s).power.queue = s.power.queue := rfl
@[simp] theorem State.modRamp_holder (f : Ramp → Ramp) : (State.modRamp k f s).power.holder = s.power.holder := rfl
@[simp] theorem State.modRamp_hold (f : Ramp → Ramp) : (State.modRamp k f s).power.hold = s.power.hold := rfl
@[simp] theorem State.modMon_slots (f : MonSlot → MonSlot) :
    (State.modMon k f s).mon.slots = s.mon.slots.set k (f (s.mon.slots.get k)) := rfl
@[simp] theorem State.modHost_host (f : HostPort → HostPort) : (State.modHost f s).host = f s.host := rfl
@[simp] theorem State.modSettings_settings (f : Settings → Settings) : (State.modSettings f s).settings = f s.settings := rfl
@[simp] theorem State.modStore_store (f : PolicyStore → PolicyStore) : (State.modStore f s).store = f s.store := rfl
@[simp] theorem State.post_notices (n : NoticeKind) (o : Option Slot) (r : Reason) (v : Nat) :
    (State.post n o r v s).notices = s.notices.take n o r false v := rfl
@[simp] theorem State.postGranted_notices (r : Reason) (b : Bool) (v : Nat) :
    (State.postGranted k r b v s).notices = s.notices.take .granted (some k) r b v := rfl
@[simp] theorem State.taken_raised (c : Instr) : (State.taken c s).raised = s.raised.erase c := rfl

@[simp] theorem State.sessOf_modSess (f : Session → Session) (j : Slot) :
    (State.modSess k f s).sessOf j = if j = k then f (s.sessOf k) else s.sessOf j := PerSlot.get_set _ _ _ _
@[simp] theorem State.lineOf_modLine (f : Line → Line) (j : Slot) :
    (State.modLine k f s).lineOf j = if j = k then f (s.lineOf k) else s.lineOf j := PerSlot.get_set _ _ _ _
@[simp] theorem State.rampOf_modRamp (f : Ramp → Ramp) (j : Slot) :
    (State.modRamp k f s).rampOf j = if j = k then f (s.rampOf k) else s.rampOf j := PerSlot.get_set _ _ _ _
@[simp] theorem State.monOf_modMon (f : MonSlot → MonSlot) (j : Slot) :
    (State.modMon k f s).monOf j = if j = k then f (s.monOf k) else s.monOf j := PerSlot.get_set _ _ _ _
@[simp] theorem State.leaseOf_setLease (l : Option Lease) (j : Slot) :
    (State.setLease k l s).leaseOf j = if j = k then l else s.leaseOf j := PerSlot.get_set _ _ _ _
@[simp] theorem State.policyOf_setPolicy (r : PolicyRecord) (j : Slot) :
    (State.setPolicy k r s).policyOf j = if j = k then r else s.policyOf j := PerSlot.get_set _ _ _ _

/-! ### Accessors after updates of another part -/

@[simp] theorem State.lineOf_modSess (f : Session → Session) (j : Slot) : (State.modSess k f s).lineOf j = s.lineOf j := rfl
@[simp] theorem State.rampOf_modSess (f : Session → Session) (j : Slot) : (State.modSess k f s).rampOf j = s.rampOf j := rfl
@[simp] theorem State.monOf_modSess (f : Session → Session) (j : Slot) : (State.modSess k f s).monOf j = s.monOf j := rfl
@[simp] theorem State.leaseOf_modSess (f : Session → Session) (j : Slot) : (State.modSess k f s).leaseOf j = s.leaseOf j := rfl
@[simp] theorem State.policyOf_modSess (f : Session → Session) (j : Slot) : (State.modSess k f s).policyOf j = s.policyOf j := rfl
@[simp] theorem State.entryOf_modSess (f : Session → Session) (j : Slot) : (State.modSess k f s).entryOf j = s.entryOf j := rfl
@[simp] theorem State.settings_modSess (f : Session → Session) : (State.modSess k f s).settings = s.settings := rfl

@[simp] theorem State.sessOf_modLine (f : Line → Line) (j : Slot) : (State.modLine k f s).sessOf j = s.sessOf j := rfl
@[simp] theorem State.rampOf_modLine (f : Line → Line) (j : Slot) : (State.modLine k f s).rampOf j = s.rampOf j := rfl
@[simp] theorem State.monOf_modLine (f : Line → Line) (j : Slot) : (State.modLine k f s).monOf j = s.monOf j := rfl
@[simp] theorem State.leaseOf_modLine (f : Line → Line) (j : Slot) : (State.modLine k f s).leaseOf j = s.leaseOf j := rfl
@[simp] theorem State.policyOf_modLine (f : Line → Line) (j : Slot) : (State.modLine k f s).policyOf j = s.policyOf j := rfl
@[simp] theorem State.entryOf_modLine (f : Line → Line) (j : Slot) : (State.modLine k f s).entryOf j = s.entryOf j := rfl
@[simp] theorem State.settings_modLine (f : Line → Line) : (State.modLine k f s).settings = s.settings := rfl

@[simp] theorem State.sessOf_modRamp (f : Ramp → Ramp) (j : Slot) : (State.modRamp k f s).sessOf j = s.sessOf j := rfl
@[simp] theorem State.lineOf_modRamp (f : Ramp → Ramp) (j : Slot) : (State.modRamp k f s).lineOf j = s.lineOf j := rfl
@[simp] theorem State.monOf_modRamp (f : Ramp → Ramp) (j : Slot) : (State.modRamp k f s).monOf j = s.monOf j := rfl
@[simp] theorem State.leaseOf_modRamp (f : Ramp → Ramp) (j : Slot) : (State.modRamp k f s).leaseOf j = s.leaseOf j := rfl
@[simp] theorem State.policyOf_modRamp (f : Ramp → Ramp) (j : Slot) : (State.modRamp k f s).policyOf j = s.policyOf j := rfl
@[simp] theorem State.entryOf_modRamp (f : Ramp → Ramp) (j : Slot) : (State.modRamp k f s).entryOf j = s.entryOf j := rfl
@[simp] theorem State.settings_modRamp (f : Ramp → Ramp) : (State.modRamp k f s).settings = s.settings := rfl

@[simp] theorem State.sessOf_modMon (f : MonSlot → MonSlot) (j : Slot) : (State.modMon k f s).sessOf j = s.sessOf j := rfl
@[simp] theorem State.lineOf_modMon (f : MonSlot → MonSlot) (j : Slot) : (State.modMon k f s).lineOf j = s.lineOf j := rfl
@[simp] theorem State.rampOf_modMon (f : MonSlot → MonSlot) (j : Slot) : (State.modMon k f s).rampOf j = s.rampOf j := rfl
@[simp] theorem State.leaseOf_modMon (f : MonSlot → MonSlot) (j : Slot) : (State.modMon k f s).leaseOf j = s.leaseOf j := rfl
@[simp] theorem State.policyOf_modMon (f : MonSlot → MonSlot) (j : Slot) : (State.modMon k f s).policyOf j = s.policyOf j := rfl
@[simp] theorem State.entryOf_modMon (f : MonSlot → MonSlot) (j : Slot) : (State.modMon k f s).entryOf j = s.entryOf j := rfl
@[simp] theorem State.settings_modMon (f : MonSlot → MonSlot) : (State.modMon k f s).settings = s.settings := rfl

@[simp] theorem State.sessOf_modHost (f : HostPort → HostPort) (j : Slot) : (State.modHost f s).sessOf j = s.sessOf j := rfl
@[simp] theorem State.lineOf_modHost (f : HostPort → HostPort) (j : Slot) : (State.modHost f s).lineOf j = s.lineOf j := rfl
@[simp] theorem State.rampOf_modHost (f : HostPort → HostPort) (j : Slot) : (State.modHost f s).rampOf j = s.rampOf j := rfl
@[simp] theorem State.monOf_modHost (f : HostPort → HostPort) (j : Slot) : (State.modHost f s).monOf j = s.monOf j := rfl
@[simp] theorem State.leaseOf_modHost (f : HostPort → HostPort) (j : Slot) : (State.modHost f s).leaseOf j = s.leaseOf j := rfl
@[simp] theorem State.policyOf_modHost (f : HostPort → HostPort) (j : Slot) : (State.modHost f s).policyOf j = s.policyOf j := rfl
@[simp] theorem State.entryOf_modHost (f : HostPort → HostPort) (j : Slot) : (State.modHost f s).entryOf j = s.entryOf j := rfl
@[simp] theorem State.settings_modHost (f : HostPort → HostPort) : (State.modHost f s).settings = s.settings := rfl

@[simp] theorem State.sessOf_modSettings (f : Settings → Settings) (j : Slot) : (State.modSettings f s).sessOf j = s.sessOf j := rfl
@[simp] theorem State.lineOf_modSettings (f : Settings → Settings) (j : Slot) : (State.modSettings f s).lineOf j = s.lineOf j := rfl
@[simp] theorem State.rampOf_modSettings (f : Settings → Settings) (j : Slot) : (State.modSettings f s).rampOf j = s.rampOf j := rfl
@[simp] theorem State.monOf_modSettings (f : Settings → Settings) (j : Slot) : (State.modSettings f s).monOf j = s.monOf j := rfl
@[simp] theorem State.leaseOf_modSettings (f : Settings → Settings) (j : Slot) : (State.modSettings f s).leaseOf j = s.leaseOf j := rfl
@[simp] theorem State.policyOf_modSettings (f : Settings → Settings) (j : Slot) : (State.modSettings f s).policyOf j = s.policyOf j := rfl
@[simp] theorem State.entryOf_modSettings (f : Settings → Settings) (j : Slot) : (State.modSettings f s).entryOf j = s.entryOf j := rfl

@[simp] theorem State.sessOf_modStore (f : PolicyStore → PolicyStore) (j : Slot) : (State.modStore f s).sessOf j = s.sessOf j := rfl
@[simp] theorem State.lineOf_modStore (f : PolicyStore → PolicyStore) (j : Slot) : (State.modStore f s).lineOf j = s.lineOf j := rfl
@[simp] theorem State.rampOf_modStore (f : PolicyStore → PolicyStore) (j : Slot) : (State.modStore f s).rampOf j = s.rampOf j := rfl
@[simp] theorem State.monOf_modStore (f : PolicyStore → PolicyStore) (j : Slot) : (State.modStore f s).monOf j = s.monOf j := rfl
@[simp] theorem State.leaseOf_modStore (f : PolicyStore → PolicyStore) (j : Slot) : (State.modStore f s).leaseOf j = s.leaseOf j := rfl
@[simp] theorem State.policyOf_modStore (f : PolicyStore → PolicyStore) (j : Slot) : (State.modStore f s).policyOf j = s.policyOf j := rfl
@[simp] theorem State.entryOf_modStore (f : PolicyStore → PolicyStore) (j : Slot) : (State.modStore f s).entryOf j = s.entryOf j := rfl
@[simp] theorem State.settings_modStore (f : PolicyStore → PolicyStore) : (State.modStore f s).settings = s.settings := rfl

@[simp] theorem State.sessOf_withQueue (q : List Entry) (j : Slot) : (State.withQueue q s).sessOf j = s.sessOf j := rfl
@[simp] theorem State.lineOf_withQueue (q : List Entry) (j : Slot) : (State.withQueue q s).lineOf j = s.lineOf j := rfl
@[simp] theorem State.rampOf_withQueue (q : List Entry) (j : Slot) : (State.withQueue q s).rampOf j = s.rampOf j := rfl
@[simp] theorem State.monOf_withQueue (q : List Entry) (j : Slot) : (State.withQueue q s).monOf j = s.monOf j := rfl
@[simp] theorem State.leaseOf_withQueue (q : List Entry) (j : Slot) : (State.withQueue q s).leaseOf j = s.leaseOf j := rfl
@[simp] theorem State.policyOf_withQueue (q : List Entry) (j : Slot) : (State.withQueue q s).policyOf j = s.policyOf j := rfl
@[simp] theorem State.settings_withQueue (q : List Entry) : (State.withQueue q s).settings = s.settings := rfl

@[simp] theorem State.sessOf_wantPass (b : Bool) (j : Slot) : (State.wantPass b s).sessOf j = s.sessOf j := rfl
@[simp] theorem State.lineOf_wantPass (b : Bool) (j : Slot) : (State.wantPass b s).lineOf j = s.lineOf j := rfl
@[simp] theorem State.rampOf_wantPass (b : Bool) (j : Slot) : (State.wantPass b s).rampOf j = s.rampOf j := rfl
@[simp] theorem State.monOf_wantPass (b : Bool) (j : Slot) : (State.wantPass b s).monOf j = s.monOf j := rfl
@[simp] theorem State.leaseOf_wantPass (b : Bool) (j : Slot) : (State.wantPass b s).leaseOf j = s.leaseOf j := rfl
@[simp] theorem State.policyOf_wantPass (b : Bool) (j : Slot) : (State.wantPass b s).policyOf j = s.policyOf j := rfl
@[simp] theorem State.entryOf_wantPass (b : Bool) (j : Slot) : (State.wantPass b s).entryOf j = s.entryOf j := rfl
@[simp] theorem State.settings_wantPass (b : Bool) : (State.wantPass b s).settings = s.settings := rfl

@[simp] theorem State.sessOf_taken (c : Instr) (j : Slot) : (State.taken c s).sessOf j = s.sessOf j := rfl
@[simp] theorem State.lineOf_taken (c : Instr) (j : Slot) : (State.taken c s).lineOf j = s.lineOf j := rfl
@[simp] theorem State.rampOf_taken (c : Instr) (j : Slot) : (State.taken c s).rampOf j = s.rampOf j := rfl
@[simp] theorem State.monOf_taken (c : Instr) (j : Slot) : (State.taken c s).monOf j = s.monOf j := rfl
@[simp] theorem State.leaseOf_taken (c : Instr) (j : Slot) : (State.taken c s).leaseOf j = s.leaseOf j := rfl
@[simp] theorem State.policyOf_taken (c : Instr) (j : Slot) : (State.taken c s).policyOf j = s.policyOf j := rfl
@[simp] theorem State.entryOf_taken (c : Instr) (j : Slot) : (State.taken c s).entryOf j = s.entryOf j := rfl
@[simp] theorem State.settings_taken (c : Instr) : (State.taken c s).settings = s.settings := rfl

@[simp] theorem State.sessOf_post (n : NoticeKind) (o : Option Slot) (r : Reason) (v : Nat) (j : Slot) : (State.post n o r v s).sessOf j = s.sessOf j := rfl
@[simp] theorem State.lineOf_post (n : NoticeKind) (o : Option Slot) (r : Reason) (v : Nat) (j : Slot) : (State.post n o r v s).lineOf j = s.lineOf j := rfl
@[simp] theorem State.rampOf_post (n : NoticeKind) (o : Option Slot) (r : Reason) (v : Nat) (j : Slot) : (State.post n o r v s).rampOf j = s.rampOf j := rfl
@[simp] theorem State.monOf_post (n : NoticeKind) (o : Option Slot) (r : Reason) (v : Nat) (j : Slot) : (State.post n o r v s).monOf j = s.monOf j := rfl
@[simp] theorem State.leaseOf_post (n : NoticeKind) (o : Option Slot) (r : Reason) (v : Nat) (j : Slot) : (State.post n o r v s).leaseOf j = s.leaseOf j := rfl
@[simp] theorem State.policyOf_post (n : NoticeKind) (o : Option Slot) (r : Reason) (v : Nat) (j : Slot) : (State.post n o r v s).policyOf j = s.policyOf j := rfl
@[simp] theorem State.entryOf_post (n : NoticeKind) (o : Option Slot) (r : Reason) (v : Nat) (j : Slot) : (State.post n o r v s).entryOf j = s.entryOf j := rfl
@[simp] theorem State.settings_post (n : NoticeKind) (o : Option Slot) (r : Reason) (v : Nat) : (State.post n o r v s).settings = s.settings := rfl

@[simp] theorem State.sessOf_postGranted (r : Reason) (b : Bool) (v : Nat) (j : Slot) : (State.postGranted k r b v s).sessOf j = s.sessOf j := rfl
@[simp] theorem State.lineOf_postGranted (r : Reason) (b : Bool) (v : Nat) (j : Slot) : (State.postGranted k r b v s).lineOf j = s.lineOf j := rfl
@[simp] theorem State.rampOf_postGranted (r : Reason) (b : Bool) (v : Nat) (j : Slot) : (State.postGranted k r b v s).rampOf j = s.rampOf j := rfl
@[simp] theorem State.monOf_postGranted (r : Reason) (b : Bool) (v : Nat) (j : Slot) : (State.postGranted k r b v s).monOf j = s.monOf j := rfl
@[simp] theorem State.leaseOf_postGranted (r : Reason) (b : Bool) (v : Nat) (j : Slot) : (State.postGranted k r b v s).leaseOf j = s.leaseOf j := rfl
@[simp] theorem State.policyOf_postGranted (r : Reason) (b : Bool) (v : Nat) (j : Slot) : (State.postGranted k r b v s).policyOf j = s.policyOf j := rfl
@[simp] theorem State.entryOf_postGranted (r : Reason) (b : Bool) (v : Nat) (j : Slot) : (State.postGranted k r b v s).entryOf j = s.entryOf j := rfl
@[simp] theorem State.settings_postGranted (r : Reason) (b : Bool) (v : Nat) : (State.postGranted k r b v s).settings = s.settings := rfl

@[simp] theorem State.sessOf_setLease (l : Option Lease) (j : Slot) : (State.setLease k l s).sessOf j = s.sessOf j := rfl
@[simp] theorem State.lineOf_setLease (l : Option Lease) (j : Slot) : (State.setLease k l s).lineOf j = s.lineOf j := rfl
@[simp] theorem State.rampOf_setLease (l : Option Lease) (j : Slot) : (State.setLease k l s).rampOf j = s.rampOf j := rfl
@[simp] theorem State.monOf_setLease (l : Option Lease) (j : Slot) : (State.setLease k l s).monOf j = s.monOf j := rfl
@[simp] theorem State.policyOf_setLease (l : Option Lease) (j : Slot) : (State.setLease k l s).policyOf j = s.policyOf j := rfl
@[simp] theorem State.entryOf_setLease (l : Option Lease) (j : Slot) : (State.setLease k l s).entryOf j = s.entryOf j := rfl
@[simp] theorem State.settings_setLease (l : Option Lease) : (State.setLease k l s).settings = s.settings := rfl

@[simp] theorem State.sessOf_setPolicy (r : PolicyRecord) (j : Slot) : (State.setPolicy k r s).sessOf j = s.sessOf j := rfl
@[simp] theorem State.lineOf_setPolicy (r : PolicyRecord) (j : Slot) : (State.setPolicy k r s).lineOf j = s.lineOf j := rfl
@[simp] theorem State.rampOf_setPolicy (r : PolicyRecord) (j : Slot) : (State.setPolicy k r s).rampOf j = s.rampOf j := rfl
@[simp] theorem State.monOf_setPolicy (r : PolicyRecord) (j : Slot) : (State.setPolicy k r s).monOf j = s.monOf j := rfl
@[simp] theorem State.leaseOf_setPolicy (r : PolicyRecord) (j : Slot) : (State.setPolicy k r s).leaseOf j = s.leaseOf j := rfl
@[simp] theorem State.entryOf_setPolicy (r : PolicyRecord) (j : Slot) : (State.setPolicy k r s).entryOf j = s.entryOf j := rfl


end Sys2Proof.Machine
end

