-- ==== Sys2Proof/Laws/HostPort.lean ====
section
/-! SUPPORT. What a word does to the transaction in progress, said once: it opens one, it continues one, or it ends one and opens the next (R154). -/

namespace Sys2Proof.Machine

/-- The address byte of a row opens a transaction of the row's direction at the row's address (R154). -/
@[simp] theorem Burst.opened_addressByte (write : Bool) (addr : BitVec 7) :
    Burst.opened (addressByte write addr) = { write := write, next := addr } := by
  have hw : (addressByte write addr).getLsbD 7 = write := by
    rw [addressByte, BitVec.getLsbD_cons]
    simp
  have ha : (addressByte write addr).extractLsb' 0 7 = addr := by
    ext i hi
    rw [BitVec.getElem_extractLsb', addressByte, BitVec.getLsbD_cons, if_neg (by omega)]
    simp [hi]
  rw [Burst.opened, hw, ha]

@[simp] theorem HostPort.begin_addressByte (write : Bool) (addr : BitVec 7) (h : HostPort) :
    h.begin (addressByte write addr) = { h with burst := some { write := write, next := addr } } := by
  simp [HostPort.begin]

@[simp] theorem HostPort.nextWord_some {h : HostPort} {b : Burst} (hb : h.burst = some b) :
    h.nextWord = { h with burst := some { b with next := nextAddr b.next } } := by
  simp [HostPort.nextWord, hb]

variable {s : State} {write : Bool} {addr : BitVec 7}

/-- A word that opens a transaction or continues the one in progress moves the port to the address after it, and nothing else. -/
theorem State.touch_of_fits (h : s.WordFits write addr) :
    s.touch write addr = s.modHost (fun h => { h with burst := some { write := write, next := nextAddr addr } }) := by
  rcases h with h | h
  · simp [State.touch, State.reach, h, State.modHost, HostPort.nextWord]
  · simp [State.touch, State.reach, h, State.modHost, HostPort.nextWord]

theorem State.endTransaction_burst_of_unarmed (h : s.host.armed = false) : s.endTransaction = s.modHost HostPort.release := by
  simp [State.endTransaction, h]

/-- Any other word ends the transaction in progress and then acts as the first of its own. -/
theorem State.touch_of_not_fits (h : ¬ s.WordFits write addr) :
    s.touch write addr = (s.endTransaction.modHost (HostPort.begin (addressByte write addr))).modHost HostPort.nextWord := by
  cases hb : s.host.burst with
  | none => exact absurd (.inl hb) h
  | some b =>
    have : b ≠ { write := write, next := addr } := fun e => h (.inr (by rw [hb, e]))
    simp [State.touch, State.reach, hb, this]

end Sys2Proof.Machine
end

