-- ==== Sys2Proof/Laws/Moves.lean ====
section
/-! SUPPORT. What a command can do to the Allocator, the live policy and the Notice Queue, said once: every command but a POLICY_LOAD that completes the load is a sequence of the moves below, so a law that each move and the load keep is kept by every command. -/

namespace Sys2Proof.Machine

/-- What places an entry in the queue: its slot, class and rank. -/
def Entry.place (e : Entry) : Slot × PowerClass × Nat := (e.slot, e.cls, e.rank)

/-- One move. A move outside the Allocator, the live policy, the Notice Queue and START_DONE is `outside`. -/
inductive Move : State → State → Prop
  | outside {s t : State} (ha : t.alloc = s.alloc) (hp : t.cmd.policy = s.cmd.policy) (hs : t.cmd.settings = s.cmd.settings)
      (hn : t.notices = s.notices) (hd : t.store.startDone = s.store.startDone) : Move s t
  | post (s : State) (n : NoticeKind) (o : Option Slot) (r : Reason) (b : Bool) (v : Nat) :
      Move s { s with notices := s.notices.take n o r b v }
  | pop {s t : State} (n : Notice) (ns : List Notice) (h : s.notices.records = n :: ns)
      (ht : t.notices = { s.notices with records := ns }) (ha : t.alloc = s.alloc) (hc : t.cmd = s.cmd) (hd : t.store = s.store) :
      Move s t
  | clear {s t : State} (ht : t.notices = NoticeQueue.reset) (ha : t.alloc = s.alloc) (hp : t.cmd.policy = s.cmd.policy)
      (hs : t.cmd.settings = s.cmd.settings) (hd : t.store.startDone = s.store.startDone) : Move s t
  | flags (s : State) (a : AllocState) (c d : Bool) :
      Move s { s with alloc := { s.alloc with state := a, sagCondition := c, passDue := d } }
  | lease (s : State) (k : Slot) (l : Option Lease) : Move s (s.setLease k l)
  | deadlines {s t : State} (ha : t.alloc = { s.alloc with leases := s.alloc.leases.map (Option.map Lease.tick) })
      (hc : t.cmd = s.cmd) (hn : t.notices = s.notices) (hd : t.store = s.store) : Move s t
  | policy (s : State) (k : Slot) (r : PolicyRecord) (h : s.applyCheck k r = .ok) : Move s (s.setPolicy k r)
  | settings (s : State) (f : Settings → Settings) (h : (f s.settings).passLimit = s.settings.passLimit)
      (hr : s.settings.inRange = true → (f s.settings).inRange = true)
      (hf : s.floorSum ≤ s.settings.supplyLimit - s.settings.reserve →
        s.floorSum ≤ (f s.settings).supplyLimit - (f s.settings).reserve) : Move s (s.modSettings f)
  | passLimit (s : State) (n : Nat) (h : n ≤ 15) :
      Move s ((s.modSettings (fun x => { x with passLimit := n })).withQueue
        (s.alloc.queue.map (fun e => { e with passCount := min e.passCount n })))
  | leave (s : State) (p : Entry → Bool) : Move s (s.withQueue (s.alloc.queue.filter p))
  | requeue (s : State) (q : List Entry) (hk : q.map Entry.place = s.alloc.queue.map Entry.place)
      (hp : s.PassLaw → ∀ e ∈ q, e.passCount ≤ s.settings.passLimit) : Move s (s.withQueue q)
  | join (s : State) (e : Entry) (he : s.entryOf e.slot = none) (hp : e.passCount = 0) : Move s (s.joinEntry e)
  | rekey (s : State) (k : Slot) (e : Entry) (c : PowerClass) (r : Nat) (h : s.entryOf k = some e) :
      Move s ((s.unqueue k).joinEntry { e with cls := c, rank := r })
  | reclaimEnd (s : State) : Move s { s with alloc := { s.alloc with reclaim := none, earmark := 0 } }
  | reclaimBegin (s : State) (r : Reclaim) (h : s.alloc.reclaim = none) (hr : 1 ≤ r.shortfall) :
      Move s { s with alloc := { s.alloc with reclaim := some r } }
  | earmark (s : State) (r r' : Reclaim) (n : Nat) (h : s.alloc.reclaim = some r)
      (hn : s.alloc.earmark ≤ r.shortfall → 1 ≤ r.shortfall → n ≤ r'.shortfall ∧ 1 ≤ r'.shortfall) :
      Move s { s with alloc := { s.alloc with reclaim := some r', earmark := n } }
  | reset (s : State) (b : Bool) : Move s (s.deviceReset b)

/-- Any number of moves. -/
abbrev Moves : State → State → Prop := Relation.ReflTransGen Move

namespace Moves

variable {s t : State} {k : Slot}

theorem mv (h : Moves s t) {u : State} (m : Move t u) : Moves s u := h.tail m

/-! ### The updates -/

theorem to_outside (h : Moves s t) {u : State} (ha : u.alloc = t.alloc) (hc : u.cmd = t.cmd) (hn : u.notices = t.notices)
    (hd : u.store = t.store) : Moves s u :=
  h.tail (.outside ha (by rw [hc]) (by rw [hc]) hn (by rw [hd]))

theorem to_modSess (h : Moves s t) {f : Session → Session} : Moves s (t.modSess k f) := h.to_outside rfl rfl rfl rfl
theorem to_modLine (h : Moves s t) {f : Line → Line} : Moves s (t.modLine k f) := h.to_outside rfl rfl rfl rfl
theorem to_modRamp (h : Moves s t) {f : Ramp → Ramp} : Moves s (t.modRamp k f) := h.to_outside rfl rfl rfl rfl
theorem to_modMon (h : Moves s t) {f : MonSlot → MonSlot} : Moves s (t.modMon k f) := h.to_outside rfl rfl rfl rfl
theorem to_modHost (h : Moves s t) {f : HostPort → HostPort} : Moves s (t.modHost f) := h.to_outside rfl rfl rfl rfl
theorem to_taken (h : Moves s t) {c : Instr} : Moves s (t.taken c) := h.to_outside rfl rfl rfl rfl
theorem to_drive (h : Moves s t) {w : Word} : Moves s (t.drive w) := h.to_outside rfl rfl rfl rfl
theorem to_post (h : Moves s t) {n : NoticeKind} {o : Option Slot} {r : Reason} {v : Nat} : Moves s (t.post n o r v) :=
  h.tail (.post t n o r false v)
theorem to_postGranted (h : Moves s t) {r : Reason} {b : Bool} {v : Nat} : Moves s (t.postGranted k r b v) :=
  h.tail (.post t .granted (some k) r b v)
theorem to_setLease (h : Moves s t) {l : Option Lease} : Moves s (t.setLease k l) := h.tail (.lease t k l)
theorem to_wantPass (h : Moves s t) {b : Bool} : Moves s (t.wantPass b) :=
  h.tail (.flags t t.alloc.state t.alloc.sagCondition (t.alloc.passDue || b))
theorem to_complete (h : Moves s t) {r : CmdResult} : Moves s (t.complete r) := h.tail (.outside rfl rfl rfl rfl rfl)
theorem to_unqueue (h : Moves s t) : Moves s (t.unqueue k) := h.tail (.leave t _)

/-! ### Sessions, the main path, reclaim, the queue -/

theorem to_enter (h : Moves s t) {st : SessState} : Moves s (t.enter k st) := h.to_outside rfl rfl rfl rfl
theorem to_joinRamp (h : Moves s t) : Moves s (t.joinRamp k) := h.to_outside rfl rfl rfl rfl
theorem to_handToRamp (h : Moves s t) {g : Byte} : Moves s (t.handToRamp k g) := h.to_outside rfl rfl rfl rfl
theorem to_startRamp (h : Moves s t) : Moves s (t.startRamp k) := h.to_outside rfl rfl rfl rfl
theorem to_releasePath (h : Moves s t) : Moves s (t.releasePath k) := h.to_outside rfl rfl rfl rfl

theorem to_handOn (h : Moves s t) : Moves s t.handOn := by
  unfold State.handOn; split
  · exact h.to_startRamp
  · exact h

theorem to_endReclaim (h : Moves s t) {n : Nat} : Moves s (t.endReclaim n) := by
  unfold State.endReclaim; split
  · exact h
  · exact (((h.to_wantPass (b := decide (0 < t.alloc.earmark))).tail (.reclaimEnd _)).tail (.post _ _ _ _ _ _))

theorem to_abandonReclaim (h : Moves s t) : Moves s t.abandonReclaim := h.to_endReclaim

theorem to_creditVictim (h : Moves s t) {f : Nat} : Moves s (t.creditVictim k f) := by
  unfold State.creditVictim; split
  · exact h
  · split
    · rename_i r hr _
      exact h.tail (.earmark t r _ _ hr (by intro a b; dsimp only; omega))
    · exact h

theorem to_removeEntry (h : Moves s t) : Moves s (t.removeEntry k) := by
  unfold State.removeEntry; split
  · exact h
  · dsimp only; split
    · exact (h.to_unqueue.to_wantPass).to_abandonReclaim
    · exact h.to_unqueue.to_wantPass

theorem to_denyEntry (h : Moves s t) {r : Reason} : Moves s (t.denyEntry k r) := by
  unfold State.denyEntry; split
  · exact h
  · dsimp only; split
    · exact ((h.to_unqueue.to_wantPass).to_modLine.to_post).to_abandonReclaim
    · exact (h.to_unqueue.to_wantPass).to_modLine.to_post

theorem to_dropLease (h : Moves s t) : Moves s (t.dropLease k) := by
  unfold State.dropLease; split
  · exact h
  · dsimp only; split
    · exact ((h.to_setLease.to_creditVictim.to_wantPass).to_modLine.to_releasePath).to_modMon
    · exact (h.to_setLease.to_modLine.to_releasePath).to_modMon

theorem to_teardown (h : Moves s t) {c : Reason} {st : SessState} : Moves s (t.teardown k c st) := by
  unfold State.teardown; dsimp only; split
  · exact (h.to_removeEntry.to_modLine.to_modSess.to_modMon.to_enter).to_modLine
  · exact h.to_removeEntry.to_modLine.to_modSess.to_modMon.to_enter

theorem to_endSession (h : Moves s t) {c : Reason} {st : SessState} : Moves s (t.endSession k c st) := h.to_teardown.to_post

theorem to_settle (h : Moves s t) : Moves s (t.settle k) := by
  unfold State.settle; split
  · dsimp only; split
    · exact h.to_enter
    · exact h.to_enter.to_denyEntry
  · exact h.to_endSession

theorem to_faultSlot (h : Moves s t) {c : Reason} : Moves s (t.faultSlot k c) := h.to_dropLease.to_teardown.to_post.to_post

/-! ### Claims -/

theorem to_retier (h : Moves s t) {o : EntryOrigin} {w l : Nat} : Moves s (t.retier k o w l) := by
  refine h.tail (.requeue t _ ?_ ?_)
  · rw [List.map_map]; apply List.map_congr_left; intro e _; simp only [Function.comp]; split <;> rfl
  · intro hp e he
    obtain ⟨x, hx, rfl⟩ := List.mem_map.1 he
    have := hp x hx
    split <;> exact this

theorem to_lowerShortfall (h : Moves s t) {e : Entry} : Moves s (t.lowerShortfall e) := by
  unfold State.lowerShortfall; split
  · exact h
  · rename_i r hr
    exact h.tail (.earmark t r _ _ hr (by intro a b; dsimp only; omega))

theorem to_refuseClaim (h : Moves s t) {o : EntryOrigin} {r : Reason} {w : Nat} : Moves s (t.refuseClaim k o r w) := by
  unfold State.refuseClaim; dsimp only
  have h1 : Moves s (if (t.entryOf k).isSome = true then (t.unqueue k).wantPass true else t) := by
    split
    · exact h.to_unqueue.to_wantPass
    · exact h
  have h2 : ∀ {u : State} {p : Prop} [Decidable p] {f : Line → Line}, Moves s u →
      Moves s (if p then u else u.modLine k f) := by
    intro u p _ f hu; split
    · exact hu
    · exact hu.to_modLine
  split
  · exact (h2 h1).to_post.to_abandonReclaim
  · exact (h2 h1).to_post

theorem to_takeClaim (h : Moves s t) {o : EntryOrigin} {w l : Nat} : Moves s (t.takeClaim k o w l) := by
  unfold State.takeClaim; split
  · rename_i he
    split
    · exact h.to_refuseClaim
    · refine to_post (to_wantPass ?_)
      exact h.mv (.join t _ he rfl)
  · dsimp only
    repeat' (first
      | exact h.to_refuseClaim
      | exact (h.to_retier.to_wantPass).to_post
      | exact ((h.to_retier.to_wantPass).to_post).to_abandonReclaim
      | exact ((h.to_retier.to_wantPass).to_post).to_lowerShortfall
      | split)

theorem to_restore (h : Moves s t) {n : Nat} : Moves s (t.restore k n) := by
  unfold State.restore; split
  · exact h.to_takeClaim
  · exact h

theorem to_bringup (h : Moves s t) : Moves s (t.bringup k) := by
  unfold State.bringup; split
  · exact h
  · exact h.to_takeClaim

/-! ### Recall -/

theorem to_cancelRaise (h : Moves s t) : Moves s (t.cancelRaise k) := by
  unfold State.cancelRaise; split
  · exact h
  · split
    · exact h.to_setLease.to_modLine
    · exact h

theorem to_completeRaise (h : Moves s t) {g : Byte} {b : Bool} : Moves s (t.completeRaise k g b) := by
  unfold State.completeRaise
  repeat' (first | exact h | exact h.to_setLease | split)

theorem to_putLower (h : Moves s t) {l : Lease} {n d : Nat} {o : RecallOrigin} : Moves s (t.putLower k l n o d) :=
  h.to_setLease.to_modLine.to_post

theorem to_recallOn (h : Moves s t) {n : Nat} {o : RecallOrigin} : Moves s (t.recallOn k n o) := by
  unfold State.recallOn
  repeat' (first | exact h | exact h.to_putLower | split)

theorem to_recallRamp (h : Moves s t) {n : Nat} {o : RecallOrigin} : Moves s (t.recallRamp k n o) := by
  unfold State.recallRamp; split
  · exact h.to_dropLease.to_post.to_settle
  · exact h

theorem to_recall (h : Moves s t) {n : Nat} {o : RecallOrigin} : Moves s (t.recall k n o) := by
  unfold State.recall; split
  · exact h.to_cancelRaise.to_recallOn
  all_goals first | exact h | (cases o <;> first | exact h.to_recallRamp | exact h)

theorem to_endLowerKept (h : Moves s t) {u d : Nat} : Moves s (t.endLowerKept k u d) := by
  unfold State.endLowerKept; split
  · exact h
  · exact h.to_setLease.to_creditVictim.to_wantPass

theorem to_settleRestoring (h : Moves s t) {n : Nat} : Moves s (t.settleRestoring k n) := by
  unfold State.settleRestoring; dsimp only; split
  · exact h.to_settle.to_restore
  · exact h.to_settle

theorem to_settleRecalled (h : Moves s t) {o : RecallOrigin} {n : Nat} : Moves s (t.settleRecalled k o n) := by
  unfold State.settleRecalled; split
  · exact h.to_settleRestoring
  · exact h.to_settle

theorem to_lowerAnswered (h : Moves s t) {u : Nat} {o : RecallOrigin} : Moves s (t.lowerAnswered k u o) := by
  unfold State.lowerAnswered; split
  · exact h.to_dropLease.to_post.to_settleRecalled
  · exact h.to_endLowerKept.to_modLine.to_post

theorem to_cutRecalled (h : Moves s t) {o : RecallOrigin} : Moves s (t.cutRecalled k o) :=
  h.to_modSess.to_dropLease.to_post.to_settleRecalled

theorem to_lowerExpired (h : Moves s t) {n d : Nat} {o : RecallOrigin} : Moves s (t.lowerExpired k n d o) := by
  unfold State.lowerExpired; split
  · split
    · exact h.to_dropLease.to_post.to_settleRecalled
    · exact h.to_endLowerKept.to_post
  · exact h.to_cutRecalled

/-! ### The pass and the end of a happening -/

theorem foldl {α : Type} (f : State → α → State) (hf : ∀ {u : State} (a : α), Moves s u → Moves s (f u a)) (l : List α)
    (h : Moves s t) : Moves s (l.foldl f t) := by
  induction l generalizing t with
  | nil => exact h
  | cons a l ih => exact ih (hf a h)

/-- Pass counts that rise by R41 stay within PASS_LIMIT, and no entry moves. -/
theorem bumpAhead_place (k : Slot) (q : List Entry) : (t.bumpAhead k q).map Entry.place = q.map Entry.place := by
  induction q with
  | nil => rfl
  | cons e es ih =>
    unfold State.bumpAhead; split
    · rfl
    · rw [List.map_cons, List.map_cons, ih]; congr 1; split <;> rfl

theorem bumpAhead_passCount (k : Slot) (q : List Entry) (h : ∀ e ∈ q, e.passCount ≤ t.settings.passLimit) :
    ∀ e ∈ t.bumpAhead k q, e.passCount ≤ t.settings.passLimit := by
  induction q with
  | nil => simp [State.bumpAhead]
  | cons x xs ih =>
    unfold State.bumpAhead; split
    · exact h
    · intro e he
      rcases List.mem_cons.1 he with rfl | he
      · split
        · rename_i hx
          simp only [Bool.and_eq_true, decide_eq_true_eq] at hx
          exact hx.2
        · exact h x (List.mem_cons_self ..)
      · exact ih (fun e he => h e (List.mem_cons_of_mem _ he)) e he

theorem to_createLease (h : Moves s t) {n : Nat} {b : Bool} : Moves s (t.createLease k n b) :=
  h.to_setLease.to_modSess.to_handToRamp.to_modLine

theorem to_createRaise (h : Moves s t) {l : Lease} {n : Nat} {o : EntryOrigin} {b : Bool} : Moves s (t.createRaise k l n o b) :=
  h.to_setLease.to_modLine

theorem to_grant (h : Moves s t) {e : Entry} {n : Nat} : Moves s (t.grant e n) := by
  have h1 : Moves s (t.withQueue (t.bumpAhead e.slot t.alloc.queue)) :=
    h.tail (.requeue t _ (bumpAhead_place _ _) (fun hp => bumpAhead_passCount _ _ hp))
  have h2 := h1.to_unqueue (k := e.slot)
  unfold State.grant; dsimp only
  have h3 : Moves s (match t.leaseOf e.slot with
      | some l => ((t.withQueue (t.bumpAhead e.slot t.alloc.queue)).unqueue e.slot).createRaise e.slot l n e.origin (decide (n < e.wanted))
      | none => ((t.withQueue (t.bumpAhead e.slot t.alloc.queue)).unqueue e.slot).createLease e.slot n (decide (n < e.wanted))) := by
    split
    · exact h2.to_createRaise
    · exact h2.to_createLease
  split
  · refine to_post (to_wantPass ?_)
    exact h3.to_postGranted.mv (.reclaimEnd _)
  · exact h3.to_postGranted

theorem recallOn_reclaim (t : State) (n : Nat) (o : RecallOrigin) : (t.recallOn k n o).alloc.reclaim = t.alloc.reclaim := by
  unfold State.recallOn
  repeat' (first | rfl | split)

theorem to_beginReclaim (h : Moves s t) {e : Entry} {n : Nat} {p : List (Slot × Nat)} (hr : t.alloc.reclaim = none)
    (hn : 1 ≤ n) : Moves s (t.beginReclaim e n p) := by
  unfold State.beginReclaim; dsimp only
  have h1 : Moves s (p.foldl (fun s p => s.recallOn p.1 p.2 .preempt) t) := foldl _ (fun _ hu => hu.to_recallOn) p h
  have h2 : ∀ (p : List (Slot × Nat)) (t : State), t.alloc.reclaim = none →
      (p.foldl (fun s p => s.recallOn p.1 p.2 .preempt) t).alloc.reclaim = none := by
    intro p
    induction p with
    | nil => intro t ht; exact ht
    | cons a p ih => intro t ht; exact ih _ ((recallOn_reclaim t _ _).trans ht)
  refine to_post ?_
  exact h1.mv (.reclaimBegin _ _ (h2 p t hr) hn)

theorem to_askReclaim (h : Moves s t) {e : Entry} : Moves s (t.askReclaim e) := by
  unfold State.askReclaim; split
  · rename_i hc
    split
    · exact h.to_beginReclaim hc.2.2.1 (by have := hc.2.2.2.2; omega)
    · exact h
  · exact h

theorem to_walk (l : List Slot) (h : Moves s t) : Moves s (State.walk l t) := by
  induction l generalizing t with
  | nil => exact h
  | cons k ks ih =>
    unfold State.walk
    repeat' (first | exact ih h | exact ih h.to_askReclaim | exact h.to_askReclaim | exact ih h.to_grant | split)

theorem to_testUnmet (h : Moves s t) : Moves s t.testUnmet := by
  unfold State.testUnmet
  repeat' (first | exact h | exact h.to_endReclaim.to_wantPass | split)

theorem to_pass (h : Moves s t) : Moves s t.pass :=
  (to_walk _ (h.tail (.flags t t.alloc.state t.alloc.sagCondition false))).to_testUnmet

theorem to_passes (n : Nat) (h : Moves s t) : Moves s (State.passes n t) := by
  induction n generalizing t with
  | zero => exact h.tail (.flags t t.alloc.state t.alloc.sagCondition false)
  | succ n ih =>
    unfold State.passes; split
    · exact ih h.to_pass
    · exact h.tail (.flags t t.alloc.state t.alloc.sagCondition false)

theorem to_testShedEnd (h : Moves s t) : Moves s t.testShedEnd := by
  unfold State.testShedEnd; split
  · exact h.to_post.tail (.flags _ _ _ _)
  · exact h

theorem to_finish (h : Moves s t) : Moves s t.finish := (to_passes 4 h.to_testShedEnd).to_handOn

/-! ### Shedding -/

theorem to_abortRamp (h : Moves s t) : Moves s (t.abortRamp k) := by
  unfold State.abortRamp
  split <;> first | exact h.to_dropLease.to_post.to_settleRestoring | exact h

theorem to_carryOut (h : Moves s t) {p : Slot × ShedChoice} : Moves s (t.carryOut p) := by
  unfold State.carryOut; split
  · exact h.to_cancelRaise
  · exact h.to_recall
  · exact h.to_abortRamp

theorem to_testShedding (h : Moves s t) : Moves s t.testShedding := by
  unfold State.testShedding; split
  · exact h
  · dsimp only; split
    · exact h.to_abandonReclaim.to_wantPass
    · refine foldl _ (fun _ hu => hu.to_carryOut) _ ?_
      split
      · exact h.to_abandonReclaim
      · refine to_post ?_
        exact h.to_abandonReclaim.mv (.flags _ .shedding t.abandonReclaim.alloc.sagCondition t.abandonReclaim.alloc.passDue)

end Moves

end Sys2Proof.Machine
end

