-- ==== Sys2Proof/Laws/MovesExec.lean ====
section
/-! SUPPORT. Every command but the load itself is a sequence of moves (Laws/Moves.lean), and so is every step. -/

namespace Sys2Proof.Machine

namespace Moves

variable {s t : State} {k : Slot}

theorem whenLoaded {f : State → State} (h : Moves s t) (hf : Moves t (f t)) : Moves s (t.whenLoaded f) := by
  unfold State.whenLoaded; split
  · exact h.trans hf
  · exact h

theorem to_raised (h : Moves s t) {l : List Instr} : Moves s { t with raised := l } := h.to_outside rfl rfl rfl rfl

/-! ### The slot line -/

theorem to_sendFrame (h : Moves s t) : Moves s (t.sendFrame k) := by
  unfold State.sendFrame
  repeat' with_reducible (first | exact h | exact h.to_modLine | split)

theorem to_loseLink (h : Moves s t) : Moves s (t.loseLink k) := h.to_modLine.to_post

theorem to_exhausted (h : Moves s t) : Moves s (t.exhausted k) := by
  unfold State.exhausted
  split <;> with_reducible first | exact h.to_loseLink | exact h.to_modLine

theorem to_failAttempt (h : Moves s t) {f : FailKind} : Moves s (t.failAttempt k f) := by
  unfold State.failAttempt; dsimp only
  repeat' with_reducible (first | exact h.to_modLine.to_modLine | exact h.to_modLine.to_exhausted | split)

theorem to_gapTimeout (h : Moves s t) : Moves s (t.gapTimeout k) := by
  unfold State.gapTimeout
  repeat' with_reducible (first | exact h | exact h.to_modLine | exact h.to_modLine.to_failAttempt | split)

theorem to_responseTimeout (h : Moves s t) : Moves s (t.responseTimeout k) := by
  unfold State.responseTimeout
  split <;> with_reducible first | exact h | exact h.to_failAttempt

theorem to_recoverLink (h : Moves s t) : Moves s (t.recoverLink k) := by
  unfold State.recoverLink; split
  · exact ((h.to_modLine.to_post).to_wantPass).to_finish
  · exact h

theorem to_reportDelivery (h : Moves s t) {f : Frame} : Moves s (t.reportDelivery k f) := by
  unfold State.reportDelivery; dsimp only
  split
  · exact h.to_modLine.to_completeRaise
  · exact h.to_modLine

theorem to_acceptResponse (h : Moves s t) {f : Frame} {m : UpMsg} : Moves s (t.acceptResponse k f m) :=
  ((h.to_recoverLink.to_reportDelivery (f := f)).to_finish.to_modLine (k := k) (f := Line.next _ _)).to_raised

theorem to_responseComplete (h : Moves s t) {b : List Byte} {l : Bool} : Moves s (t.responseComplete k b l) := by
  unfold State.responseComplete
  repeat' with_reducible (first | exact h | exact h.to_failAttempt | exact h.to_acceptResponse | split)

theorem to_responseBegin (h : Moves s t) : Moves s (t.responseBegin k) := by
  unfold State.responseBegin
  split <;> with_reducible first | exact h | exact h.to_modLine

theorem to_pollElapsed (h : Moves s t) : Moves s (t.pollElapsed k) := by
  unfold State.pollElapsed
  split <;> with_reducible first | exact h | exact h.to_modLine

theorem to_graceExpired (h : Moves s t) : Moves s (t.graceExpired k) := by
  unfold State.graceExpired
  split
  · split
    all_goals with_reducible first
      | exact h.to_modLine
      | exact h.to_endSession.to_finish
      | exact h.to_dropLease.to_endSession.to_finish
      | exact h.to_dropLease.to_post.to_endSession.to_finish
  · exact h

/-! ### Messages -/

theorem to_openSession (h : Moves s t) {d : Descriptor} : Moves s (t.openSession k d) := by
  unfold State.openSession; dsimp only; split
  · exact (h.to_modSess.to_enter.to_modLine.to_post).to_bringup
  · exact h.to_modSess.to_enter.to_modLine.to_post

theorem to_validateHello (h : Moves s t) {d : Descriptor} : Moves s (t.validateHello k d) := by
  unfold State.validateHello; split
  · exact h.to_modSess.to_enter.to_modLine.to_post
  · exact h.to_openSession

theorem to_restart (h : Moves s t) : Moves s (t.restart k) := by
  unfold State.restart; dsimp only; split
  · exact h.to_dropLease.to_post.to_endSession
  · exact h.to_dropLease.to_endSession

theorem to_countError (h : Moves s t) : Moves s (t.countError k) := h.to_modSess

theorem to_barStandby (h : Moves s t) : Moves s (t.barStandby k) := by
  unfold State.barStandby; split
  · exact h.to_endSession
  · exact h

theorem to_hearHello (h : Moves s t) {d : Descriptor} : Moves s (t.hearHello k d) := by
  unfold State.hearHello
  split <;> with_reducible first
    | exact h | exact h.to_countError
    | exact h.to_validateHello.to_barStandby.to_finish
    | exact h.to_restart.to_validateHello.to_barStandby.to_finish

theorem dispatch {g : Byte} {f : State → State} (h : Moves s t) (hf : Moves t (f t)) : Moves s (t.dispatch k g f) := by
  unfold State.dispatch; split
  · exact h.trans hf
  · exact h

theorem to_answerClaim (h : Moves s t) : Moves s (t.answerClaim k) := by
  unfold State.answerClaim; split
  · exact h
  · exact h.to_modLine

theorem to_hearClaim (h : Moves s t) {w l : Nat} : Moves s (t.hearClaim k w l) := by
  unfold State.hearClaim
  split <;> with_reducible first | exact h | exact h.to_countError | exact h.to_takeClaim.to_finish.to_answerClaim

theorem to_yieldPlain (h : Moves s t) {u : Nat} : Moves s (t.yieldPlain k u) := by
  unfold State.yieldPlain
  repeat' with_reducible (first | exact h | exact h.to_dropLease.to_post.to_settle | exact h.to_setLease.to_post | split)

theorem to_yieldOn (h : Moves s t) {g : Byte} {u : Nat} : Moves s (t.yieldOn k g u) := by
  unfold State.yieldOn
  repeat' with_reducible (first | exact h | exact h.to_lowerAnswered | exact h.to_cancelRaise.to_yieldPlain | exact h.to_yieldPlain | split)

theorem to_hearYield (h : Moves s t) {g : Byte} {u : Nat} : Moves s (t.hearYield k g u) := by
  unfold State.hearYield
  split <;> with_reducible first | exact h | exact h.to_countError | exact h.to_yieldOn.to_finish

theorem to_readyOn (h : Moves s t) {g : Byte} {u : Nat} : Moves s (t.readyOn k g u) := by
  unfold State.readyOn
  repeat' with_reducible (first | exact h | exact h.to_lowerAnswered | split)

theorem to_hearReady (h : Moves s t) {g : Byte} {u : Nat} : Moves s (t.hearReady k g u) := by
  unfold State.hearReady
  split <;> with_reducible first | exact h | exact h.to_countError | exact h.to_readyOn.to_finish

theorem to_faultOn (h : Moves s t) {g : Byte} {u : Nat} : Moves s (t.faultOn k g u) := by
  unfold State.faultOn
  repeat' with_reducible (first | exact h | exact (h.to_dropLease.to_modSess.to_post).to_settle | split)

theorem to_hearFault (h : Moves s t) {g : Byte} {u : Nat} : Moves s (t.hearFault k g u) := by
  unfold State.hearFault
  split <;> with_reducible first | exact h | exact h.to_countError | exact h.to_faultOn.to_finish

/-! ### Presence, ramp, monitor -/

theorem to_insert (h : Moves s t) : Moves s (t.insert k) := by
  unfold State.insert; split
  · exact h.to_modSess.to_enter
  · exact h

theorem to_removal (h : Moves s t) : Moves s (t.removal k) := by
  unfold State.removal State.vacate; split
  · dsimp only; split
    · exact (h.to_dropLease.to_teardown.to_modSess.to_post.to_post).to_finish
    · exact (h.to_dropLease.to_teardown.to_modSess.to_post).to_finish
  · exact h

theorem to_rampDone (h : Moves s t) {g : Byte} : Moves s (t.rampDone k g) := by
  unfold State.rampDone; split
  · unfold State.completeRamp State.queueRampGrant
    have h1 : Moves s ((((t.modRamp k (fun r => { r with state := .none, tag := 0, retry := 0, timer := 0 })).freeResource
        k).disarm k).modSess k (fun x => { x with state := .on })) := h.to_outside rfl rfl rfl rfl
    split
    · exact h1.to_finish
    · exact h1.to_modLine.to_finish
  · exact h

theorem to_rampTimedOut (h : Moves s t) : Moves s (t.rampTimedOut k) := by
  unfold State.rampTimedOut; split
  · split
    · refine to_finish ?_
      exact to_post (h.to_outside (u := (((t.modRamp k _).freeResource k).disarm k).modSess k _) rfl rfl rfl rfl)
    · exact h.to_faultSlot.to_finish
  · exact h

theorem to_backoffEnded (h : Moves s t) : Moves s (t.backoffEnded k) := by
  unfold State.backoffEnded; split
  · exact h.to_joinRamp.to_finish
  · exact h

theorem to_reportGood (h : Moves s t) : Moves s (t.reportGood k) := h.to_outside rfl rfl rfl rfl

theorem to_stepWatch (h : Moves s t) {b : Nat} : Moves s (t.stepWatch b k) := by
  unfold State.stepWatch; split
  · exact h.to_reportGood
  · exact h.to_modMon

theorem to_stepOverdraw (h : Moves s t) : Moves s (t.stepOverdraw k) := by
  unfold State.stepOverdraw State.scanAbove
  repeat' with_reducible (first | exact h.to_modMon | exact h.to_outside rfl rfl rfl rfl | dsimp only | split)

theorem to_stepDetector (h : Moves s t) {b : Nat} : Moves s (t.stepDetector b) := by
  unfold State.stepDetector
  split <;> with_reducible first | exact h | exact h.to_outside rfl rfl rfl rfl

theorem to_stepSag (h : Moves s t) {b : Nat} : Moves s (t.stepSag b) := by
  unfold State.stepSag
  split
  · split
    · exact h.to_outside rfl rfl rfl rfl
    · refine to_stepDetector ?_
      exact h.to_outside rfl rfl rfl rfl
  · refine to_stepDetector ?_
    exact h.to_outside rfl rfl rfl rfl

theorem to_scan (h : Moves s t) {v : PerSlot Sample} {b : Nat} : Moves s (t.scan v b) := by
  unfold State.scan
  refine to_stepSag (foldl _ (fun _ hu => hu.to_stepOverdraw) _ (foldl _ (fun _ hu => hu.to_stepWatch) _
    (foldl _ (fun _ hu => hu.to_modMon) _ ?_)))
  exact h.to_outside rfl rfl rfl rfl

theorem to_takeStrike (h : Moves s t) {g : Byte} {n : StrikeNumber} : Moves s (t.takeStrike k g n) := by
  unfold State.takeStrike State.strike
  repeat' with_reducible (first | exact h | exact h.to_post.to_recall.to_finish | exact h.to_post.to_faultSlot.to_finish | split)

theorem to_sagCut (h : Moves s t) : Moves s (t.sagCut k) := h.to_dropLease.to_post.to_testShedEnd

theorem to_sagBegins (h : Moves s t) {b : Nat} : Moves s (t.sagBegins b) := by
  unfold State.sagBegins
  refine to_finish (foldl _ (fun _ hu => hu.to_settleRestoring) _ (foldl _ (fun _ hu => hu.to_sagCut) _ ?_))
  exact (h.to_post.mv (.flags _ _ true _)).to_outside rfl rfl rfl rfl

theorem to_sagEnds (h : Moves s t) : Moves s t.sagEnds := by
  unfold State.sagEnds
  refine to_finish (to_wantPass ?_)
  have h1 : Moves s { t with mon := { t.mon with sag := .normal, low := 0, holdoff := 0 } } := h.to_outside rfl rfl rfl rfl
  exact (h1.to_post.mv (.flags _ _ false _)).to_outside rfl rfl rfl rfl

theorem to_deadlinePassed (h : Moves s t) : Moves s (t.deadlinePassed k) := by
  unfold State.deadlinePassed
  repeat' with_reducible (first | exact h | exact h.to_lowerExpired.to_finish | split)

/-! ### The Command Unit -/

theorem command {f : State → State} (h : Moves s t) (hf : Moves t (f t)) : Moves s (t.command f) := by
  unfold State.command; split
  · exact h.to_outside rfl rfl rfl rfl
  · exact h.trans hf

theorem slotCommand {b : Byte} {f : Slot → State → State} (h : Moves s t) (hf : ∀ k, Moves t (f k t)) :
    Moves s (t.slotCommand b f) := by
  refine command h ?_
  split
  · exact to_complete .refl
  · exact hf _

theorem to_recheckSlot (h : Moves s t) {f : State → Slot → Nat → Bool} {r : Reason} : Moves s (t.recheckSlot f r k) := by
  unfold State.recheckSlot
  repeat' with_reducible (first | exact h | exact h.to_denyEntry | split)

theorem to_recheckFits (h : Moves s t) : Moves s t.recheckFits := foldl _ (fun _ hu => hu.to_recheckSlot) _ h

theorem to_rekeyEntry (h : Moves s t) : Moves s (t.rekeyEntry k) := by
  unfold State.rekeyEntry; split
  · exact h
  · exact to_wantPass (h.mv (.rekey t k _ _ _ ‹_›))

theorem to_reclassRamp (h : Moves s t) : Moves s (t.reclassRamp k) := by
  unfold State.reclassRamp; dsimp only
  split <;> with_reducible first | exact h | exact h.to_outside rfl rfl rfl rfl

theorem to_abandonDeferrable (h : Moves s t) : Moves s (t.abandonDeferrable k) := by
  unfold State.abandonDeferrable; split
  · exact h.to_abandonReclaim
  · exact h

theorem to_applyKey (h : Moves s t) {r : PolicyRecord} : Moves s (t.applyKey k r) := by
  unfold State.applyKey; dsimp only
  repeat' with_reducible (first
    | exact h | exact h.to_rekeyEntry | exact h.to_rekeyEntry.to_reclassRamp.to_abandonDeferrable
    | exact h.to_reclassRamp.to_abandonDeferrable | split)

theorem to_applyCap (h : Moves s t) : Moves s (t.applyCap k) := by
  unfold State.applyCap; split
  · exact h.to_recall
  · exact h

theorem to_applyEnable (h : Moves s t) {r : PolicyRecord} : Moves s (t.applyEnable k r) := by
  unfold State.applyEnable State.disable State.enable
  repeat' with_reducible (first
    | exact h | exact h.to_enter | exact h.to_modSess.to_enter | exact h.to_denyEntry.to_endSession
    | exact h.to_denyEntry.to_recall | split)

theorem to_applyPolicy (h : Moves s t) : Moves s (t.applyPolicy k) := by
  unfold State.applyPolicy; dsimp only; split
  · rename_i hok
    refine to_complete ?_
    split
    · exact h
    · unfold State.applyRecord
      exact ((h.mv (.policy t k _ hok)).to_applyKey.to_recheckSlot.to_recheckFits.to_applyCap).to_applyEnable.to_finish
  · exact h.to_complete

theorem to_setBudget (h : Moves s t) {l r : Nat} : Moves s (t.setBudget l r) := by
  unfold State.setBudget; split
  · exact h.to_complete
  · split
    · exact h.to_complete
    · rename_i ha hf
      refine to_complete ?_
      unfold State.applyBudget
      refine to_finish (to_wantPass (to_testShedding (to_recheckFits ?_)))
      refine h.mv (.settings t _ rfl ?_ ?_)
      · intro hs
        simp only [Settings.inRange, Bool.and_eq_true, decide_eq_true_eq, and_assoc] at hs ⊢
        exact ⟨by omega, by omega, hs.2.2⟩
      · intro _; exact not_lt.1 hf

theorem to_admitSlot (h : Moves s t) : Moves s (t.admitSlot k) := by
  unfold State.admitSlot; split
  · exact (h.to_modSess.to_bringup.to_finish).to_complete
  · exact h.to_complete

theorem to_evictLease (h : Moves s t) {b : Bool} : Moves s (t.evictLease k b) := by
  unfold State.evictLease
  split <;> with_reducible first | exact h.to_dropLease.to_post.to_settle | exact h.to_recall

theorem to_evictSlot (h : Moves s t) {n : Nat} : Moves s (t.evictSlot k n) := by
  unfold State.evictSlot
  repeat' with_reducible (first
    | exact h.to_complete | exact ((h.to_modSess.to_denyEntry.to_evictLease).to_finish).to_complete | split)

theorem to_setTier (h : Moves s t) {n : Nat} : Moves s (t.setTier k n) := by
  unfold State.setTier State.moveTier
  repeat' with_reducible (first
    | exact h.to_complete | exact h.to_takeClaim.to_finish.to_complete | exact h.to_recall.to_finish.to_complete
    | exact h.to_finish.to_complete | split)

theorem to_clearFault (h : Moves s t) : Moves s (t.clearFault k) := by
  unfold State.clearFault; dsimp only; split
  · exact (h.to_modSess.to_modMon.to_modLine.to_enter).to_complete
  · exact h.to_complete

theorem to_rescan (h : Moves s t) : Moves s (t.rescan k) := by
  unfold State.rescan; dsimp only; split
  · exact (h.to_modSess.to_modLine.to_enter).to_complete
  · exact h.to_complete

end Moves

/-- A change of a copy leaves START_DONE and everything but the copies. -/
theorem PolicyStore.setTarget_startDone (p : PolicyStore) (x : Copy) : (p.setTarget x).startDone = p.startDone := by
  unfold PolicyStore.setTarget PolicyStore.setCopy; split <;> rfl

namespace Moves

variable {s t : State} {k : Slot}

/-- A change of the Policy Store that keeps START_DONE. -/
theorem to_modStore (h : Moves s t) {f : PolicyStore → PolicyStore} (hf : (f t.store).startDone = t.store.startDone) :
    Moves s (t.modStore f) := h.mv (.outside rfl rfl rfl rfl hf)

theorem to_storePolicy (h : Moves s t) : Moves s t.storePolicy := h.to_modStore (PolicyStore.setTarget_startDone _ _)

theorem to_takeCommand (h : Moves s t) {c a b : Word} : Moves s (t.takeCommand c a b) := by
  unfold State.takeCommand; dsimp only
  split
  · exact slotCommand h (fun _ => to_applyPolicy .refl)
  · exact command h (to_setBudget .refl)
  · exact slotCommand h (fun _ => to_admitSlot .refl)
  · exact slotCommand h (fun _ => to_evictSlot .refl)
  · exact slotCommand h (fun _ => to_setTier .refl)
  · exact slotCommand h (fun _ => to_clearFault .refl)
  · exact slotCommand h (fun _ => to_rescan .refl)
  · exact command h (to_storePolicy .refl)
  · exact command h (to_complete .refl)

/-! ### The Policy Store -/

theorem to_eraseDone (h : Moves s t) : Moves s t.eraseDone := by
  unfold State.eraseDone; split
  · exact h.to_modStore (PolicyStore.setTarget_startDone _ _)
  · exact h

theorem to_programDone (h : Moves s t) : Moves s t.programDone := by
  unfold State.programDone; split
  · exact h.to_modStore (PolicyStore.setTarget_startDone _ _)
  · exact h

theorem to_endStore (h : Moves s t) {r : CmdResult} : Moves s (t.endStore r) := by
  unfold State.endStore; dsimp only; split
  · exact h.to_modStore rfl
  · exact (h.to_modStore rfl).to_complete

theorem to_verifyDone (h : Moves s t) {o : VerifyOutcome} : Moves s (t.verifyDone o) := by
  unfold State.verifyDone State.storeGood State.storeBad; dsimp only
  have h1 : ∀ {x : Copy}, Moves s (t.modStore (PolicyStore.setTarget x)) :=
    fun {x} => h.to_modStore (PolicyStore.setTarget_startDone _ x)
  have h2 : ∀ {x : Copy} {i : Image}, Moves s
      (t.modStore (fun p => { p.setTarget x with active := p.target, activeGen := i.generation })) :=
    fun {x _} => h.to_modStore (PolicyStore.setTarget_startDone _ x)
  repeat' with_reducible (first | exact h | exact h1.to_endStore | exact h2.to_endStore | exact h2.to_endStore.to_post | split)

/-! ### The Host Port -/

theorem to_endTransaction (h : Moves s t) : Moves s t.endTransaction := by
  unfold State.endTransaction; dsimp only; split
  · exact whenLoaded h.to_modHost (to_takeCommand .refl)
  · exact h.to_modHost

theorem to_touch (h : Moves s t) {b : Bool} {a : BitVec 7} : Moves s (t.touch b a) := by
  unfold State.touch State.reach
  repeat' with_reducible (first | exact h.to_modHost | exact h.to_modHost.to_modHost | exact h.to_endTransaction.to_modHost.to_modHost | split)

theorem to_clearPeak (h : Moves s t) {w : Word} : Moves s (t.clearPeak w) := by
  unfold State.clearPeak
  repeat' with_reducible (first | exact h | exact h.to_modMon | split)

theorem to_readTable (h : Moves s t) : Moves s t.readTable := by
  unfold State.readTable; split
  · exact h.to_clearPeak.to_modHost.to_drive
  · exact h.to_modHost.to_drive

theorem to_readNotice (h : Moves s t) : Moves s t.readNotice := by
  unfold State.readNotice; dsimp only
  have h1 : Moves s t.takeNotice := by
    unfold State.takeNotice; split
    · exact h.to_modHost
    · rename_i n ns hn
      exact h.mv (.pop n ns hn rfl rfl rfl rfl)
  split
  · exact h1.to_modHost.to_drive
  · exact h.to_modHost.to_drive

theorem to_readBudget (h : Moves s t) {a : BitVec 7} : Moves s (t.readBudget a) := h.to_modHost.to_drive

theorem to_fetch (h : Moves s t) {a : BitVec 7} : Moves s (t.fetch a) := by
  unfold State.fetch; dsimp only
  repeat' with_reducible (first
    | exact h.to_touch.to_drive | exact h.to_touch.to_readTable | exact h.to_touch.to_readNotice
    | exact h.to_touch.to_readBudget | split)

/-- A setting word that is taken keeps every field in its range, and PASS_LIMIT, SUPPLY_LIMIT and RESERVE as they were. -/
theorem settingApply_keeps {r : SettingReg} {w : Word} {x y : Settings} (h : settingApply r w x = some y) :
    y.passLimit = x.passLimit ∧ y.supplyLimit = x.supplyLimit ∧ y.reserve = x.reserve ∧ (x.inRange = true → y.inRange = true) := by
  have b8 : ∀ lo, bitField w lo 8 ≤ 255 := fun lo => Nat.le_of_lt_succ (Nat.mod_lt _ (by decide))
  have b2 : ∀ lo, bitField w lo 2 ≤ 3 := fun lo => Nat.le_of_lt_succ (Nat.mod_lt _ (by decide))
  have b4 : ∀ lo, bitField w lo 4 ≤ 15 := fun lo => Nat.le_of_lt_succ (Nat.mod_lt _ (by decide))
  have b10 : ∀ lo, bitField w lo 10 ≤ 1023 := fun lo => Nat.le_of_lt_succ (Nat.mod_lt _ (by decide))
  have bp : ∀ n, [2, 4, 8, 16].contains (scanPeriodOf n) = true := by
    intro n; unfold scanPeriodOf; split <;> rfl
  unfold settingApply at h
  split at h
  · cases h
  · cases r <;> dsimp only at h <;> (try split at h) <;> cases h <;> refine ⟨rfl, rfl, rfl, ?_⟩ <;> intro hx <;>
      simp_all [Settings.inRange]

theorem to_writeSetting (h : Moves s t) {r : SettingReg} {w : Word} : Moves s (t.writeSetting r w) := by
  unfold State.writeSetting; split
  · exact h.to_modHost
  · rename_i x hx
    have := settingApply_keeps hx
    exact h.mv (.settings t _ this.1 this.2.2.2 (by rw [this.2.1, this.2.2.1]; exact id))

theorem to_writePassLimit (h : Moves s t) {w : Word} : Moves s (t.writePassLimit w) := by
  unfold State.writePassLimit; split
  · exact h.to_modHost
  · unfold State.setPassLimit
    exact (to_wantPass (h.mv (.passLimit t w.toNat (by omega)))).to_finish

theorem to_writeTable (h : Moves s t) {w : Word} : Moves s (t.writeTable w) := by
  unfold State.writeTable; dsimp only; split
  · exact h.mv (.outside rfl rfl rfl rfl rfl)
  · exact h.to_modHost.to_modHost

theorem to_portReset (h : Moves s t) : Moves s t.portReset := h.mv (.clear rfl rfl rfl rfl rfl)

theorem to_writeControl (h : Moves s t) {a b c d e : Bool} : Moves s (t.writeControl a b c d e) := by
  unfold State.writeControl; dsimp only
  have h1 : Moves s ((t.modSettings (fun x => { x with backfill := a, preempt := b })).modHost
      (fun h => { h with intNoticeEn := c, intCmdEn := d })) :=
    to_modHost (h.mv (.settings t _ rfl (fun hs => by simpa only [Settings.inRange] using hs) (fun hs => hs)))
  split
  · exact (h1.to_wantPass).to_portReset.to_finish
  · exact (h1.to_wantPass).to_finish

theorem to_write (h : Moves s t) {a : BitVec 7} {w : Word} : Moves s (t.write a w) := by
  unfold State.write
  refine whenLoaded h.to_touch ?_
  unfold State.writeLoaded
  split
  · exact to_modHost .refl
  · exact to_writeControl .refl
  · exact to_modHost .refl
  · exact to_modHost .refl
  · exact to_modHost .refl
  · exact to_writePassLimit .refl
  · exact to_modHost .refl
  · exact to_writeTable .refl
  · split
    · exact to_writeSetting .refl
    · exact .refl

theorem to_control (h : Moves s t) {f : State → State} (hf : ∀ u, Moves u (f u)) : Moves s (t.control f) :=
  whenLoaded h.to_touch (hf _)

end Moves

/-- Every command but POLICY_LOAD is a sequence of moves. -/
theorem exec_moves {c : Instr} {s t : State} (hc : c ≠ .policyLoad) (h : exec c s = .next t) : Moves s t := by
  cases c <;> cases h
  case deviceReset b => exact Moves.mv .refl (.reset s b)
  case policyLoad => exact absurd rfl hc
  case presentChange k a =>
    unfold State.presentChange; split
    · exact .refl
    · exact Moves.whenLoaded (Moves.to_outside .refl rfl rfl rfl rfl) (Moves.to_modSess .refl)
  case insertion k => exact Moves.whenLoaded .refl (Moves.to_insert .refl)
  case removal k => exact Moves.whenLoaded .refl (Moves.to_removal .refl)
  case scan v b => exact Moves.whenLoaded .refl (Moves.to_scan .refl)
  case outputGood k =>
    refine Moves.whenLoaded .refl ?_
    split
    · exact Moves.to_reportGood .refl
    · exact .refl
  case rampDone k g => exact Moves.whenLoaded (Moves.to_taken .refl) (Moves.to_rampDone .refl)
  case rampStart => exact Moves.whenLoaded .refl (Moves.to_handOn .refl)
  case rampTimeout k => exact Moves.whenLoaded .refl (Moves.to_rampTimedOut .refl)
  case backoffEnd k => exact Moves.whenLoaded .refl (Moves.to_backoffEnded .refl)
  case overdrawStrike k g n => exact Moves.whenLoaded (Moves.to_taken .refl) (Moves.to_takeStrike .refl)
  case strikeClear k =>
    refine Moves.whenLoaded .refl ?_
    split
    · exact Moves.to_modMon .refl
    · exact .refl
  case sagBegin b => exact Moves.whenLoaded (Moves.to_taken .refl) (Moves.to_sagBegins .refl)
  case sagEnd =>
    refine Moves.whenLoaded .refl ?_
    split
    · exact Moves.to_sagEnds .refl
    · exact .refl
  case recallDeadline k => exact Moves.whenLoaded .refl (Moves.to_deadlinePassed .refl)
  case pollTimer k => exact Moves.whenLoaded .refl (Moves.to_pollElapsed .refl)
  case frameSend k => exact Moves.whenLoaded .refl (Moves.to_sendFrame .refl)
  case lineGapTimeout k => exact Moves.whenLoaded .refl (Moves.to_gapTimeout .refl)
  case responseTimeout k => exact Moves.whenLoaded .refl (Moves.to_responseTimeout .refl)
  case responseComplete k b l => exact Moves.whenLoaded .refl (Moves.to_responseComplete .refl)
  case responseBegin k => exact Moves.whenLoaded .refl (Moves.to_responseBegin .refl)
  case linkGraceExpiry k => exact Moves.whenLoaded .refl (Moves.to_graceExpired .refl)
  case hello => exact Moves.whenLoaded (Moves.to_taken .refl) (Moves.to_hearHello .refl)
  case claim => exact Moves.whenLoaded (Moves.to_taken .refl) (Moves.dispatch .refl (Moves.to_hearClaim .refl))
  case yieldTier => exact Moves.whenLoaded (Moves.to_taken .refl) (Moves.dispatch .refl (Moves.to_hearYield .refl))
  case ready => exact Moves.whenLoaded (Moves.to_taken .refl) (Moves.dispatch .refl (Moves.to_hearReady .refl))
  case moduleFault => exact Moves.whenLoaded (Moves.to_taken .refl) (Moves.dispatch .refl (Moves.to_hearFault .refl))
  case noneMessage => exact Moves.to_taken .refl
  case applyPolicy => exact Moves.whenLoaded .refl (Moves.slotCommand .refl (fun _ => Moves.to_applyPolicy .refl))
  case setBudget => exact Moves.whenLoaded .refl (Moves.command .refl (Moves.to_setBudget .refl))
  case admitSlot => exact Moves.whenLoaded .refl (Moves.slotCommand .refl (fun _ => Moves.to_admitSlot .refl))
  case evict => exact Moves.whenLoaded .refl (Moves.slotCommand .refl (fun _ => Moves.to_evictSlot .refl))
  case setTier => exact Moves.whenLoaded .refl (Moves.slotCommand .refl (fun _ => Moves.to_setTier .refl))
  case clearFault => exact Moves.whenLoaded .refl (Moves.slotCommand .refl (fun _ => Moves.to_clearFault .refl))
  case rescan => exact Moves.whenLoaded .refl (Moves.slotCommand .refl (fun _ => Moves.to_rescan .refl))
  case storePolicy => exact Moves.whenLoaded .refl (Moves.command .refl (Moves.to_storePolicy .refl))
  case eraseComplete => exact Moves.whenLoaded .refl (Moves.to_eraseDone .refl)
  case programComplete => exact Moves.whenLoaded .refl (Moves.to_programDone .refl)
  case verifyComplete => exact Moves.whenLoaded .refl (Moves.to_verifyDone .refl)
  case setBackfill => exact Moves.to_control .refl (fun _ => Moves.to_writeControl .refl)
  case setPreempt => exact Moves.to_control .refl (fun _ => Moves.to_writeControl .refl)
  case setIntEnables => exact Moves.to_control .refl (fun _ => Moves.to_writeControl .refl)
  case portReset => exact Moves.to_control .refl (fun _ => Moves.to_writeControl .refl)
  case settingWrite => exact Moves.to_write .refl
  case passLimitWrite => exact Moves.to_write .refl
  case statusW1C => exact Moves.to_write .refl
  case tableSelWrite => exact Moves.to_write .refl
  case tableDataWrite => exact Moves.to_write .refl
  case registerWrite => exact Moves.to_write .refl
  case tableDataRead => exact Moves.to_fetch .refl
  case noticeDataRead => exact Moves.to_fetch .refl
  case budgetRegisterRead => exact Moves.to_fetch .refl
  case transactionEnd => exact Moves.to_endTransaction .refl

/-- POLICY_LOAD completes a load that is under way and does nothing else. -/
theorem exec_policyLoad (s : State) :
    exec .policyLoad s = .next (if s.store.startDone = true then s else s.load) := rfl

/-- Every step is a sequence of moves, or the completion of the load. -/
theorem step_moves {s t : State} (h : step s = .next t) :
    Moves s t ∨ ∃ q, s.store.startDone = false ∧ t = State.load { s with pending := q } := by
  unfold step at h; split at h
  · rename_i c rest _
    have h0 : Moves s { s with pending := rest } := Moves.to_outside .refl rfl rfl rfl rfl
    by_cases hc : c = .policyLoad
    · subst hc
      rw [exec_policyLoad] at h
      split at h <;> cases h
      · exact .inl h0
      · exact .inr ⟨rest, by simpa using ‹¬ _ = true›, rfl⟩
    · exact .inl (Relation.ReflTransGen.trans h0 (exec_moves hc h))
  · unfold idle at h
    split at h
    · rename_i hd
      have hx : ∀ c, exec c s = .next t → Moves s t := by
        intro c hx
        by_cases hc : c = .policyLoad
        · subst hc
          rw [exec_policyLoad, if_pos hd] at hx
          cases hx; exact .refl
        · exact exec_moves hc hx
      repeat' split at h
      · exact .inl (hx _ h)
      · exact .inl (hx _ h)
      · cases h; exact .inl (Moves.mv .refl (.deadlines rfl rfl rfl rfl))
    · cases h; exact .inl .refl

/-- A law that every move and the load keep is kept by every step. -/
theorem step_keeps {P : State → Prop} (hP : ∀ {s t : State}, Move s t → P s → P t)
    (hL : ∀ {s : State}, s.LoadLaw → s.store.startDone = false → P s → P s.load) {s t : State} (hl : s.LoadLaw) (hs : P s)
    (h : step s = .next t) : P t := by
  rcases step_moves h with hm | ⟨q, hd, rfl⟩
  · clear h
    induction hm with
    | refl => exact hs
    | tail _ hm ih => exact hP hm ih
  · exact hL hl hd (hP (s := s) (t := { s with pending := q }) (.outside rfl rfl rfl rfl rfl) hs)

end Sys2Proof.Machine
end

