-- ==== Sys2Proof/Laws/Slots.lean ====
section
/-! SUPPORT. What the shared operations on one slot leave as it was, and what dropping a lease and ending a session come to. -/

namespace Sys2Proof.Machine

/-- `t` differs from `s` only at slot `k`, in the Allocator's sums and reclaim, in the queues and in the notices. -/
structure State.OnlyAt (k : Slot) (s t : State) : Prop where
  host : s.HostSame t
  others : s.OthersSame t k
  raised : t.raised = s.raised
  state : t.alloc.state = s.alloc.state
  sagCondition : t.alloc.sagCondition = s.alloc.sagCondition
  hold : t.power.hold = s.power.hold
  mon : t.mon = { s.mon with slots := t.mon.slots }

namespace State.OnlyAt

variable {s t u : State} {k : Slot}

theorem refl (s : State) (k : Slot) : State.OnlyAt k s s :=
  ⟨⟨rfl, rfl, rfl, rfl, rfl⟩, fun _ _ => ⟨rfl, rfl, rfl, rfl, rfl, rfl⟩, rfl, rfl, rfl, rfl, rfl⟩

theorem trans (h : State.OnlyAt k s t) (g : State.OnlyAt k t u) : State.OnlyAt k s u := by
  obtain ⟨⟨h1, h2, h3, h4, h5⟩, ho, hr, hs, hc, hh, hm⟩ := h
  obtain ⟨⟨g1, g2, g3, g4, g5⟩, go, gr, gs, gc, gh, gm⟩ := g
  refine ⟨⟨g1.trans h1, g2.trans h2, g3.trans h3, g4.trans h4, g5.trans h5⟩, ?_, gr.trans hr, gs.trans hs, gc.trans hc,
    gh.trans hh, by rw [gm, hm]⟩
  intro j hj
  obtain ⟨a, b, c, d, e, f⟩ := ho j hj
  obtain ⟨a', b', c', d', e', f'⟩ := go j hj
  exact ⟨a'.trans a, b'.trans b, c'.trans c, d'.trans d, e'.trans e, f'.trans f⟩

theorem policyOf (h : State.OnlyAt k s t) (j : Slot) : t.policyOf j = s.policyOf j := by
  unfold State.policyOf; rw [h.host.2.1]

theorem settings (h : State.OnlyAt k s t) : t.settings = s.settings := by
  unfold State.settings; rw [h.host.2.1]

theorem floorOf (h : State.OnlyAt k s t) (j : Slot) : t.floorOf j = s.floorOf j := by
  unfold State.floorOf; rw [h.policyOf]

end State.OnlyAt

variable {s t : State} {k : Slot}

/-- The entry of another slot stands when entries of slot `k` are left out. -/
theorem find?_filter_ne {q : List Entry} {j k : Slot} (h : j ≠ k) :
    (q.filter (fun e => e.slot != k)).find? (fun e => e.slot == j) = q.find? (fun e => e.slot == j) := by
  induction q with
  | nil => rfl
  | cons e es ih =>
    by_cases hk : e.slot = k
    · have hj : (e.slot == j) = false := by simp [hk, Ne.symm h]
      simp [hk, ih, Ne.symm h]
    · by_cases hj : e.slot = j <;> simp_all

/-! ### Only at the slot -/

theorem onlyAt_modSess {f : Session → Session} : State.OnlyAt k s (s.modSess k f) := by
  refine ⟨⟨rfl, rfl, rfl, rfl, rfl⟩, fun j hj => ⟨?_, rfl, rfl, rfl, rfl, rfl⟩, rfl, rfl, rfl, rfl, rfl⟩; simp [hj]

theorem onlyAt_modLine {f : Line → Line} : State.OnlyAt k s (s.modLine k f) := by
  refine ⟨⟨rfl, rfl, rfl, rfl, rfl⟩, fun j hj => ⟨rfl, rfl, ?_, rfl, rfl, rfl⟩, rfl, rfl, rfl, rfl, rfl⟩; simp [hj]

theorem onlyAt_modRamp {f : Ramp → Ramp} : State.OnlyAt k s (s.modRamp k f) := by
  refine ⟨⟨rfl, rfl, rfl, rfl, rfl⟩, fun j hj => ⟨rfl, rfl, rfl, ?_, rfl, rfl⟩, rfl, rfl, rfl, rfl, rfl⟩; simp [hj]

theorem onlyAt_modMon {f : MonSlot → MonSlot} : State.OnlyAt k s (s.modMon k f) := by
  refine ⟨⟨rfl, rfl, rfl, rfl, rfl⟩, fun j hj => ⟨rfl, rfl, rfl, rfl, ?_, rfl⟩, rfl, rfl, rfl, rfl, rfl⟩; simp [hj]

theorem onlyAt_setLease {l : Option Lease} : State.OnlyAt k s (s.setLease k l) := by
  refine ⟨⟨rfl, rfl, rfl, rfl, rfl⟩, fun j hj => ⟨rfl, ?_, rfl, rfl, rfl, rfl⟩, rfl, rfl, rfl, rfl, rfl⟩; simp [hj]

theorem onlyAt_post {n : NoticeKind} {o : Option Slot} {r : Reason} {v : Nat} : State.OnlyAt k s (s.post n o r v) :=
  ⟨⟨rfl, rfl, rfl, rfl, rfl⟩, fun _ _ => ⟨rfl, rfl, rfl, rfl, rfl, rfl⟩, rfl, rfl, rfl, rfl, rfl⟩

theorem onlyAt_wantPass {b : Bool} : State.OnlyAt k s (s.wantPass b) :=
  ⟨⟨rfl, rfl, rfl, rfl, rfl⟩, fun _ _ => ⟨rfl, rfl, rfl, rfl, rfl, rfl⟩, rfl, rfl, rfl, rfl, rfl⟩

theorem onlyAt_unqueue : State.OnlyAt k s (s.unqueue k) :=
  ⟨⟨rfl, rfl, rfl, rfl, rfl⟩, fun _ hj => ⟨rfl, rfl, rfl, rfl, rfl, find?_filter_ne hj⟩, rfl, rfl, rfl, rfl, rfl⟩

theorem onlyAt_endReclaim {n : Nat} : State.OnlyAt k s (s.endReclaim n) := by
  unfold State.endReclaim; split
  · exact .refl _ _
  · exact ⟨⟨rfl, rfl, rfl, rfl, rfl⟩, fun _ _ => ⟨rfl, rfl, rfl, rfl, rfl, rfl⟩, rfl, rfl, rfl, rfl, rfl⟩

theorem onlyAt_creditVictim {n : Nat} : State.OnlyAt k s (s.creditVictim k n) := by
  unfold State.creditVictim
  repeat' (first | exact .refl _ _ | split)
  exact ⟨⟨rfl, rfl, rfl, rfl, rfl⟩, fun _ _ => ⟨rfl, rfl, rfl, rfl, rfl, rfl⟩, rfl, rfl, rfl, rfl, rfl⟩

theorem onlyAt_releasePath : State.OnlyAt k s (s.releasePath k) := by
  have h1 : State.OnlyAt k s { s with power := { s.power with
      queue := s.power.queue.filter (fun j => j != k)
      holder := if s.power.holder = some k then none else s.power.holder } } :=
    ⟨⟨rfl, rfl, rfl, rfl, rfl⟩, fun _ _ => ⟨rfl, rfl, rfl, rfl, rfl, rfl⟩, rfl, rfl, rfl, rfl, rfl⟩
  unfold State.releasePath
  exact h1.trans (onlyAt_modRamp.trans onlyAt_modMon)

theorem onlyAt_enter {st : SessState} : State.OnlyAt k s (s.enter k st) :=
  (onlyAt_modSess.trans onlyAt_modRamp).trans onlyAt_modLine

theorem onlyAt_removeEntry : State.OnlyAt k s (s.removeEntry k) := by
  unfold State.removeEntry; split
  · exact .refl _ _
  · dsimp only; split
    · exact (onlyAt_unqueue.trans onlyAt_wantPass).trans onlyAt_endReclaim
    · exact onlyAt_unqueue.trans onlyAt_wantPass

theorem onlyAt_denyEntry {r : Reason} : State.OnlyAt k s (s.denyEntry k r) := by
  unfold State.denyEntry; split
  · exact .refl _ _
  · dsimp only; split
    · exact (((onlyAt_unqueue.trans onlyAt_wantPass).trans onlyAt_modLine).trans onlyAt_post).trans onlyAt_endReclaim
    · exact ((onlyAt_unqueue.trans onlyAt_wantPass).trans onlyAt_modLine).trans onlyAt_post

theorem onlyAt_dropLease : State.OnlyAt k s (s.dropLease k) := by
  unfold State.dropLease; split
  · exact .refl _ _
  · dsimp only; split
    · exact ((((onlyAt_setLease.trans onlyAt_creditVictim).trans onlyAt_wantPass).trans onlyAt_modLine).trans
        onlyAt_releasePath).trans onlyAt_modMon
    · exact ((onlyAt_setLease.trans onlyAt_modLine).trans onlyAt_releasePath).trans onlyAt_modMon

theorem onlyAt_teardown {c : Reason} {st : SessState} : State.OnlyAt k s (s.teardown k c st) := by
  unfold State.teardown; dsimp only; split
  · exact ((((onlyAt_removeEntry.trans onlyAt_modLine).trans onlyAt_modSess).trans onlyAt_modMon).trans onlyAt_enter).trans
      onlyAt_modLine
  · exact (((onlyAt_removeEntry.trans onlyAt_modLine).trans onlyAt_modSess).trans onlyAt_modMon).trans onlyAt_enter

theorem onlyAt_endSession {c : Reason} {st : SessState} : State.OnlyAt k s (s.endSession k c st) :=
  onlyAt_teardown.trans onlyAt_post

theorem onlyAt_settle : State.OnlyAt k s (s.settle k) := by
  unfold State.settle; split
  · dsimp only; split
    · exact onlyAt_enter
    · exact onlyAt_enter.trans onlyAt_denyEntry
  · exact onlyAt_endSession

theorem onlyAt_faultSlot {c : Reason} : State.OnlyAt k s (s.faultSlot k c) :=
  ((onlyAt_dropLease.trans onlyAt_teardown).trans onlyAt_post).trans onlyAt_post

/-! ### No lease, no entry -/

theorem entryOf_unqueue_self : (s.unqueue k).entryOf k = none := by
  unfold State.entryOf State.unqueue State.withQueue; simp

theorem entryOf_endReclaim (n : Nat) (j : Slot) : (s.endReclaim n).entryOf j = s.entryOf j := by
  unfold State.endReclaim; split <;> rfl

theorem entryOf_removeEntry_self : (s.removeEntry k).entryOf k = none := by
  unfold State.removeEntry; split
  · assumption
  · dsimp only; split
    · exact (entryOf_endReclaim _ _).trans entryOf_unqueue_self
    · exact entryOf_unqueue_self

theorem entryOf_denyEntry_self {r : Reason} : (s.denyEntry k r).entryOf k = none := by
  unfold State.denyEntry; split
  · assumption
  · dsimp only; split
    · exact (entryOf_endReclaim _ _).trans entryOf_unqueue_self
    · exact entryOf_unqueue_self

/-! ### Where an operation does not reach -/

theorem endReclaim_frame {n : Nat} : (s.endReclaim n).sess = s.sess ∧ (s.endReclaim n).line = s.line ∧
    (s.endReclaim n).power = s.power ∧ (s.endReclaim n).mon = s.mon ∧ (s.endReclaim n).alloc.leases = s.alloc.leases ∧
    (s.endReclaim n).alloc.committed = s.alloc.committed ∧ (s.endReclaim n).alloc.queue = s.alloc.queue := by
  unfold State.endReclaim; split <;> exact ⟨rfl, rfl, rfl, rfl, rfl, rfl, rfl⟩

theorem creditVictim_frame {n : Nat} : (s.creditVictim k n).sess = s.sess ∧ (s.creditVictim k n).line = s.line ∧
    (s.creditVictim k n).power = s.power ∧ (s.creditVictim k n).mon = s.mon ∧
    (s.creditVictim k n).alloc.leases = s.alloc.leases ∧ (s.creditVictim k n).alloc.committed = s.alloc.committed ∧
    (s.creditVictim k n).alloc.queue = s.alloc.queue ∧ (s.creditVictim k n).notices = s.notices := by
  unfold State.creditVictim; split
  · exact ⟨rfl, rfl, rfl, rfl, rfl, rfl, rfl, rfl⟩
  · split <;> exact ⟨rfl, rfl, rfl, rfl, rfl, rfl, rfl, rfl⟩

theorem removeEntry_frame : (s.removeEntry k).sess = s.sess ∧ (s.removeEntry k).line = s.line ∧
    (s.removeEntry k).power = s.power ∧ (s.removeEntry k).mon = s.mon ∧ (s.removeEntry k).alloc.leases = s.alloc.leases ∧
    (s.removeEntry k).alloc.committed = s.alloc.committed := by
  unfold State.removeEntry; split
  · exact ⟨rfl, rfl, rfl, rfl, rfl, rfl⟩
  · dsimp only; split
    · obtain ⟨a, b, c, d, e, f, _⟩ := endReclaim_frame (s := (s.unqueue k).wantPass true) (n := 2)
      exact ⟨a, b, c, d, e, f⟩
    · exact ⟨rfl, rfl, rfl, rfl, rfl, rfl⟩

/-- Dropping a lease never posts a notice. -/
theorem dropLease_notices : (s.dropLease k).notices = s.notices := by
  unfold State.dropLease; split
  · rfl
  · dsimp only
    split
    · exact creditVictim_frame.2.2.2.2.2.2.2
    · rfl

/-- What dropping a lease leaves (R12, R116, R124, R134). -/
theorem dropLease_leaseOff (h : (s.leaseOf k).isSome = true) : s.LeaseOff (s.dropLease k) k := by
  obtain ⟨l, hl⟩ := Option.isSome_iff_exists.1 h
  have hc : (s.setLease k none).alloc.committed = s.alloc.committed + s.floorOf k - s.commitment k := by
    show s.alloc.committed + max (s.floorOf k) (Lease.term ((s.alloc.leases.set k none).get k)) - s.commitment k = _
    rw [PerSlot.get_set_self]; simp [Lease.term]
  have key : ∀ u : State, u.leaseOf k = none → u.alloc.committed = s.alloc.committed + s.floorOf k - s.commitment k →
      u.power = s.power →
      s.LeaseOff (((u.modLine k (Line.leaseDropped l)).releasePath k).modMon k (fun m => { m with run := 0 })) k := by
    intro u h1 h2 h3
    refine ⟨h1, h2, ?_⟩
    unfold State.releasePath
    simp only [State.rampOf_modMon, State.rampOf_modRamp, State.monOf_modMon]
    refine ⟨rfl, rfl, rfl, ?_, ?_, ?_, ?_, rfl, rfl⟩
    · show (u.power.slots.get k).retry = _; rw [h3]; rfl
    · show (u.power.slots.get k).cls = _; rw [h3]; rfl
    · show k ∉ u.power.queue.filter _; simp
    · show (if u.power.holder = some k then none else u.power.holder) ≠ some k; split <;> simp_all
  unfold State.dropLease; rw [hl]; dsimp only
  split
  · obtain ⟨_, _, c3, _, c5, c6, _, _⟩ :=
      creditVictim_frame (s := s.setLease k none) (k := k) (n := s.commitment k - (s.setLease k none).commitment k)
    refine key _ ?_ (c6.trans hc) c3
    show ((s.setLease k none).creditVictim k _).alloc.leases.get k = none
    rw [c5]; exact PerSlot.get_set_self _ _ _
  · exact key _ (PerSlot.get_set_self _ _ _) hc rfl

/-- Dropping a lease keeps the session, and the line's link, counters and sequence bit. -/
theorem dropLease_keeps : (s.dropLease k).sess = s.sess ∧ ((s.dropLease k).lineOf k).lost = (s.lineOf k).lost ∧
    ((s.dropLease k).lineOf k).counters = (s.lineOf k).counters ∧ ((s.dropLease k).lineOf k).seq = (s.lineOf k).seq ∧
    ((s.dropLease k).monOf k).struck = (s.monOf k).struck := by
  have hq : ∀ (c : Channel) (m : DownMsg) (x : Line), (x.queue c m).lost = x.lost ∧ (x.queue c m).counters = x.counters ∧
      (x.queue c m).seq = x.seq := by
    intro c m x
    unfold Line.queue Line.kick Line.restand Line.setChan
    cases c <;> dsimp only <;> split <;> (try split) <;> exact ⟨rfl, rfl, rfl⟩
  have hr : ∀ (c : Channel) (x : Line), (x.remove c).lost = x.lost ∧ (x.remove c).counters = x.counters ∧
      (x.remove c).seq = x.seq := by
    intro c x; cases c <;> exact ⟨rfl, rfl, rfl⟩
  have hg : ∀ x : Line, x.removeGrant.lost = x.lost ∧ x.removeGrant.counters = x.counters ∧ x.removeGrant.seq = x.seq := by
    intro x; unfold Line.removeGrant; split
    · exact hr _ _
    · exact ⟨rfl, rfl, rfl⟩
  have hl : ∀ (l : Lease) (x : Line), (x.leaseDropped l).lost = x.lost ∧ (x.leaseDropped l).counters = x.counters ∧
      (x.leaseDropped l).seq = x.seq := by
    intro l x; unfold Line.leaseDropped; split
    · unfold Line.cancelGrant; split
      · exact hq _ _ _
      · exact ⟨rfl, rfl, rfl⟩
    · obtain ⟨a, b, c⟩ := hg (x.remove .recall)
      obtain ⟨a', b', c'⟩ := hr .recall x
      exact ⟨a.trans a', b.trans b', c.trans c'⟩
    · exact hg x
  have key : ∀ (l : Lease) (u : State), u.sess = s.sess → u.line = s.line → u.mon = s.mon →
      let t := ((u.modLine k (Line.leaseDropped l)).releasePath k).modMon k (fun m => { m with run := 0 })
      t.sess = s.sess ∧ (t.lineOf k).lost = (s.lineOf k).lost ∧ (t.lineOf k).counters = (s.lineOf k).counters ∧
        (t.lineOf k).seq = (s.lineOf k).seq ∧ (t.monOf k).struck = (s.monOf k).struck := by
    intro l u h1 h2 h3
    have hx : (((u.modLine k (Line.leaseDropped l)).releasePath k).modMon k (fun m => { m with run := 0 })).lineOf k =
        Line.leaseDropped l (s.lineOf k) := by
      show (u.line.set k (Line.leaseDropped l (u.line.get k))).get k = _
      rw [PerSlot.get_set_self, h2]; rfl
    dsimp only
    rw [hx]
    refine ⟨h1, (hl _ _).1, (hl _ _).2.1, (hl _ _).2.2, ?_⟩
    unfold State.releasePath
    simp only [State.monOf_modMon]
    show (u.mon.slots.get k).struck = _; rw [h3]; rfl
  unfold State.dropLease; split
  · exact ⟨rfl, rfl, rfl, rfl, rfl⟩
  · dsimp only; split
    · obtain ⟨c1, c2, _, c4, _⟩ := creditVictim_frame (s := s.setLease k none) (k := k)
        (n := s.commitment k - (s.setLease k none).commitment k)
      exact key _ _ c1 c2 c4
    · exact key _ _ rfl rfl rfl


theorem sessOf_enter {st : SessState} : (s.enter k st).sessOf k = { s.sessOf k with state := st } := by
  show (s.sess.set k _).get k = _; rw [PerSlot.get_set_self]; rfl

theorem rampOf_enter {st : SessState} : (s.enter k st).rampOf k = { s.rampOf k with aux := st.auxOn } := by
  show (s.power.slots.set k _).get k = _; rw [PerSlot.get_set_self]; rfl

theorem lineOf_enter {st : SessState} : (s.enter k st).lineOf k = Line.enter st s.settings.pollPeriod (s.lineOf k) := by
  show (s.line.set k _).get k = _; rw [PerSlot.get_set_self]; rfl

theorem monOf_enter {st : SessState} {j : Slot} : (s.enter k st).monOf j = s.monOf j := rfl

theorem notices_enter {st : SessState} : (s.enter k st).notices = s.notices := rfl

theorem alloc_enter {st : SessState} : (s.enter k st).alloc = s.alloc := rfl

/-- What `enter` leaves of the line, but for phase and poll timer. -/
theorem Line.enter_outbox (st : SessState) (n : Nat) (x : Line) (h : x.outSession = none ∧ x.outRecall = none ∧ x.outClaim = none ∧
    x.pendingFrame = none ∧ x.retries = 0 ∧ x.lost = false ∧ x.grace = none) :
    let y := Line.enter st n x
    (y.outSession = none ∧ y.outRecall = none ∧ y.outClaim = none ∧ y.pendingFrame = none ∧ y.retries = 0 ∧ y.lost = false ∧
      y.grace = none) ∧ y.counters = x.counters ∧ y.seq = x.seq := by
  obtain ⟨a, b, c, d, e, f, g⟩ := h
  have hc : x.calm.outSession = none ∧ x.calm.outRecall = none ∧ x.calm.outClaim = none ∧
      x.calm.pendingFrame = none ∧ x.calm.retries = 0 ∧ x.calm.lost = false ∧ x.calm.grace = none ∧
      x.calm.counters = x.counters ∧ x.calm.seq = x.seq := by
    unfold Line.calm; split <;> exact ⟨a, b, c, d, e, f, g, rfl, rfl⟩
  obtain ⟨a', b', c', d', e', f', g', i', j'⟩ := hc
  cases st
  case vacant => exact ⟨⟨rfl, rfl, rfl, rfl, rfl, rfl, rfl⟩, i', j'⟩
  case barred => exact ⟨⟨rfl, rfl, rfl, rfl, rfl, rfl, rfl⟩, i', j'⟩
  case listening => exact ⟨⟨a', b', c', d', e', f', g'⟩, i', j'⟩
  case rejected => exact ⟨⟨a', b', c', d', e', f', g'⟩, i', j'⟩
  case faulted => exact ⟨⟨a', b', c', d', e', f', g'⟩, i', j'⟩
  all_goals exact ⟨⟨a, b, c, d, e, f, g⟩, rfl, rfl⟩

/-- The line at a session end, all of it but phase and poll timer (R88, R110, R113). -/
theorem Line.sessionEnded_outbox (x : Line) : let y := x.sessionEnded
    (y.outSession = none ∧ y.outRecall = none ∧ y.outClaim = none ∧ y.pendingFrame = none ∧ y.retries = 0 ∧ y.lost = false ∧
      y.grace = none) ∧ y.counters = x.counters ∧ y.seq = x.seq := by
  refine ⟨⟨rfl, rfl, rfl, rfl, rfl, rfl, rfl⟩, ?_, ?_⟩ <;> unfold Line.sessionEnded Line.calm <;> dsimp only <;> split <;> rfl

/-- A SEVER queued in an empty outbox. -/
theorem Line.queueSever_outbox (r : Reason) (x : Line) (h : x.outRecall = none ∧ x.outClaim = none ∧ x.pendingFrame = none) :
    let y := x.queueSever r
    y.outSession = some (.sever r) ∧ y.outRecall = none ∧ y.outClaim = none ∧ y.pendingFrame = none ∧ y.retries = x.retries ∧
      y.lost = x.lost ∧ y.grace = x.grace ∧ y.counters = x.counters ∧ y.seq = x.seq := by
  obtain ⟨a, b, c⟩ := h
  unfold Line.queueSever Line.queue Line.remove Line.kick Line.restand Line.setChan
  simp only [c, Option.map_none]
  split <;> (try split) <;> exact ⟨rfl, rfl, rfl, rfl, rfl, rfl, rfl, rfl, rfl⟩

/-- What a session end leaves where the slot has no lease any more (R88). -/
theorem teardown_sessionEnded {c : Reason} {st : SessState} {v : State} (h : s.leaseOf k = none) (hs : s.sess = v.sess)
    (hl : (s.lineOf k).lost = (v.lineOf k).lost ∧ (s.lineOf k).counters = (v.lineOf k).counters ∧
      (s.lineOf k).seq = (v.lineOf k).seq) (hm : (s.monOf k).struck = (v.monOf k).struck)
    (hc : s.alloc.committed = v.alloc.committed + v.floorOf k - v.commitment k) :
    v.SessionEnded (s.teardown k c st) k c st := by
  obtain ⟨r1, r2, r3, r4, r5, r6⟩ := removeEntry_frame (s := s) (k := k)
  have hso : v.sessOf k = s.sessOf k := by unfold State.sessOf; rw [hs]
  have b1 := Line.enter_outbox st s.settings.pollPeriod _ (Line.sessionEnded_outbox (s.lineOf k)).1
  have b2 := Line.sessionEnded_outbox (s.lineOf k)
  have hset : (s.removeEntry k).settings = s.settings := (onlyAt_removeEntry (s := s) (k := k)).settings
  have key : ∀ f : Line → Line, (let y := f (Line.enter st s.settings.pollPeriod (s.lineOf k).sessionEnded)
      y.outRecall = none ∧ y.outClaim = none ∧
      y.outSession = (if c.severs = true ∧ (v.lineOf k).lost = false then some (.sever c) else none) ∧
      y.pendingFrame = none ∧ y.retries = 0 ∧ y.lost = false ∧ y.grace = none ∧
      y.counters = (v.lineOf k).counters ∧ y.seq = (v.lineOf k).seq) →
      v.SessionEnded (((((s.removeEntry k).modLine k Line.sessionEnded).modSess k (fun x =>
        { x with admitFlag := false, lastEnd := c, desc := if st = .faulted then x.desc else none })).modMon k
          (MonSlot.sessionEnded (st = .faulted))).enter k st |>.modLine k f) k c st := by
    intro f hf
    have e1 : (s.removeEntry k).sessOf k = v.sessOf k := by rw [hso]; unfold State.sessOf; rw [r1]
    have e2 : (s.removeEntry k).lineOf k = s.lineOf k := by unfold State.lineOf; rw [r2]
    have e3 : (s.removeEntry k).monOf k = s.monOf k := by unfold State.monOf; rw [r4]
    generalize hu : ((((s.removeEntry k).modLine k Line.sessionEnded).modSess k (fun x =>
        { x with admitFlag := false, lastEnd := c, desc := if st = .faulted then x.desc else none })).modMon k
          (MonSlot.sessionEnded (st = .faulted))) = u
    have u0 : u.leaseOf k = none := by subst hu; show (s.removeEntry k).alloc.leases.get k = none; rw [r5]; exact h
    have u1 : u.sessOf k = { v.sessOf k with
        admitFlag := false, lastEnd := c, desc := if st = .faulted then (v.sessOf k).desc else none } := by
      subst hu
      rw [State.sessOf_modMon, State.sessOf_modSess, if_pos rfl, State.sessOf_modLine, e1]
    have u2 : u.lineOf k = (s.lineOf k).sessionEnded := by
      subst hu; rw [State.lineOf_modMon, State.lineOf_modSess, State.lineOf_modLine, if_pos rfl, e2]
    have u3 : u.monOf k = MonSlot.sessionEnded (st = .faulted) (s.monOf k) := by
      subst hu; rw [State.monOf_modMon, if_pos rfl, State.monOf_modSess, State.monOf_modLine, e3]
    have u4 : u.settings = s.settings := by subst hu; exact hset
    have u5 : u.entryOf k = none := by subst hu; exact entryOf_removeEntry_self
    have u6 : u.alloc.committed = s.alloc.committed := by subst hu; exact r6
    clear hu
    refine ⟨u0, u5, ?_, ?_, ?_, ?_, ?_, ?_⟩
    · rw [State.sessOf_modLine, sessOf_enter, u1]; exact ⟨rfl, rfl, rfl, rfl, rfl, rfl⟩
    · rw [State.lineOf_modLine, if_pos rfl, lineOf_enter, u2, u4]; exact hf
    · rw [State.rampOf_modLine, rampOf_enter]
    · rw [State.monOf_modLine, monOf_enter, u3]; unfold MonSlot.sessionEnded; split <;> rfl
    · rw [State.monOf_modLine, monOf_enter, u3, ← hm]; unfold MonSlot.sessionEnded
      by_cases hst : st = .faulted
      · simp [hst]
      · simp [hst]
    · exact u6.trans hc
  unfold State.teardown; dsimp only
  split
  · rename_i hsv
    refine key _ ?_
    obtain ⟨q1, q2, q3, q4, q5, q6, q7, q8, q9⟩ := Line.queueSever_outbox c
      (Line.enter st s.settings.pollPeriod (s.lineOf k).sessionEnded) ⟨b1.1.2.1, b1.1.2.2.1, b1.1.2.2.2.1⟩
    have : c.severs = true ∧ (v.lineOf k).lost = false := by
      simp only [Bool.and_eq_true, Bool.not_eq_true'] at hsv; rw [← hl.1]; exact hsv
    dsimp only
    rw [if_pos this]
    exact ⟨q2, q3, q1, q4, q5.trans b1.1.2.2.2.2.1, q6.trans b1.1.2.2.2.2.2.1, q7.trans b1.1.2.2.2.2.2.2,
      q8.trans (b1.2.1.trans (b2.2.1.trans hl.2.1)), q9.trans (b1.2.2.trans (b2.2.2.trans hl.2.2))⟩
  · rename_i hsv
    have hx := key id ?_
    · have hid : ∀ u : State, u.modLine k id = u := by
        intro u; unfold State.modLine
        have : u.line.set k (id (u.line.get k)) = u.line := by
          apply PerSlot.ext_get; intro j; rw [PerSlot.get_set]; split <;> simp_all
        rw [this]
      rw [hid] at hx
      exact hx
    · have : ¬ (c.severs = true ∧ (v.lineOf k).lost = false) := by
        intro hh; apply hsv; rw [hl.1, hh.1, hh.2]; rfl
      dsimp only [id]
      rw [if_neg this]
      exact ⟨b1.1.2.1, b1.1.2.2.1, b1.1.1, b1.1.2.2.2.1, b1.1.2.2.2.2.1, b1.1.2.2.2.2.2.1, b1.1.2.2.2.2.2.2,
        b1.2.1.trans (b2.2.1.trans hl.2.1), b1.2.2.trans (b2.2.2.trans hl.2.2)⟩

/-- What a session end leaves, its lease dropped first (R88). -/
theorem dropLease_teardown {c : Reason} {st : SessState} : s.SessionEnded ((s.dropLease k).teardown k c st) k c st := by
  obtain ⟨d1, d2, d3, d4, d5⟩ := dropLease_keeps (s := s) (k := k)
  by_cases h : (s.leaseOf k).isSome = true
  · have hg := dropLease_leaseOff h
    exact teardown_sessionEnded hg.1 d1 ⟨d2, d3, d4⟩ d5 hg.2.1
  · have hn : s.leaseOf k = none := by simpa using h
    have hd : s.dropLease k = s := by unfold State.dropLease; rw [hn]
    rw [hd]
    refine teardown_sessionEnded hn rfl ⟨rfl, rfl, rfl⟩ rfl ?_
    unfold State.commitment; rw [hn]; simp [Lease.term]

/-- What a session end is said of: only these parts of the states. -/
theorem State.SessionEnded.congr {v u w : State} {c : Reason} {st : SessState} (h : v.SessionEnded u k c st)
    (ha : w.alloc = u.alloc) (hs : w.sessOf k = u.sessOf k ∨ ∃ p, w.sessOf k = { u.sessOf k with presence := p })
    (hl : w.lineOf k = u.lineOf k) (hr : w.rampOf k = u.rampOf k) (hm : w.monOf k = u.monOf k) :
    v.SessionEnded w k c st := by
  unfold State.SessionEnded State.leaseOf State.entryOf at *
  rw [ha, hl, hr, hm]
  rcases hs with hs | ⟨p, hs⟩ <;> rw [hs] <;> exact h

/-- What the drop of a lease is said of: only these parts of the states. -/
theorem State.LeaseOff.congr {v u w : State} (h : v.LeaseOff u k) (hl : w.leaseOf k = u.leaseOf k)
    (hc : w.alloc.committed = u.alloc.committed)
    (hr : w.rampOf k = u.rampOf k ∨ ∃ a, w.rampOf k = { u.rampOf k with aux := a }) (hq : w.power.queue = u.power.queue)
    (hh : w.power.holder = u.power.holder)
    (hm : (w.monOf k).watchArmed = (u.monOf k).watchArmed ∧ (w.monOf k).run = (u.monOf k).run) : v.LeaseOff w k := by
  unfold State.LeaseOff at *
  rw [hl, hc, hq, hh, hm.1, hm.2]
  rcases hr with hr | ⟨a, hr⟩ <;> rw [hr] <;> exact h

/-- A session end keeps what the drop of the lease left. -/
theorem State.LeaseOff.teardown {v u : State} {c : Reason} {st : SessState} (h : v.LeaseOff u k) :
    v.LeaseOff (u.teardown k c st) k := by
  obtain ⟨r1, r2, r3, r4, r5, r6⟩ := removeEntry_frame (s := u) (k := k)
  have key : ∀ f : Line → Line, v.LeaseOff ((((((u.removeEntry k).modLine k Line.sessionEnded).modSess k (fun x =>
        { x with admitFlag := false, lastEnd := c, desc := if st = .faulted then x.desc else none })).modMon k
          (MonSlot.sessionEnded (st = .faulted))).enter k st).modLine k f) k := by
    intro f
    refine h.congr ?_ r6 (.inr ⟨st.auxOn, ?_⟩) ?_ ?_ ?_
    · show (u.removeEntry k).alloc.leases.get k = _; rw [r5]; rfl
    · rw [State.rampOf_modLine, rampOf_enter]; simp only [State.rampOf_modMon, State.rampOf_modSess, State.rampOf_modLine]
      unfold State.rampOf; rw [r3]
    · show (u.removeEntry k).power.queue = _; rw [r3]
    · show (u.removeEntry k).power.holder = _; rw [r3]
    · rw [State.monOf_modLine, monOf_enter, State.monOf_modMon, if_pos rfl]
      have : (((u.removeEntry k).modLine k Line.sessionEnded).modSess k (fun x =>
        { x with admitFlag := false, lastEnd := c, desc := if st = .faulted then x.desc else none })).monOf k = u.monOf k := by
        show (u.removeEntry k).mon.slots.get k = _; rw [r4]; rfl
      rw [this]
      have hrun := h.2.2.2.2.2.2.2.2.2.2
      unfold MonSlot.sessionEnded; split <;> exact ⟨rfl, hrun.symm⟩
  unfold State.teardown; dsimp only; split
  · exact key _
  · have hx := key id
    have hid : ∀ u : State, u.modLine k id = u := by
      intro u; unfold State.modLine
      have : u.line.set k (id (u.line.get k)) = u.line := by
        apply PerSlot.ext_get; intro j; rw [PerSlot.get_set]; split <;> simp_all
      rw [this]
    rw [hid] at hx; exact hx

/-! ### What the drop of a lease does to the reclaim -/

theorem entryOf_eq_of_queue {t : State} (h : t.alloc.queue = s.alloc.queue) : t.entryOf k = s.entryOf k := by
  unfold State.entryOf; rw [h]

/-- The credit of R60, of a state whose reclaim and earmark are those of `s`. -/
theorem creditVictim_credits {u : State} {f : Nat} (h : s.ReclaimSame u) : s.Credits (u.creditVictim k f) k f := by
  unfold State.creditVictim State.Credits State.ReclaimSame
  rw [h.1, h.2]
  cases hr : s.alloc.reclaim with
  | none => exact ⟨fun _ h => by simp at h, fun _ => by rw [h.1, h.2, hr]; exact ⟨rfl, rfl⟩⟩
  | some r =>
    dsimp only
    by_cases hk : k ∈ r.victims
    · rw [if_pos (List.contains_iff_mem.2 hk)]
      refine ⟨fun r' h' _ => ?_, fun hn => absurd hk (hn r rfl)⟩
      obtain rfl : r = r' := by simpa using h'
      have hp : (fun j : Slot => j != k) = fun j => decide (j ≠ k) := by
        funext j; by_cases h : j = k <;> simp [h]
      exact ⟨rfl, by rw [hp]⟩
    · rw [if_neg (by simpa using hk)]
      refine ⟨fun r' h' hk' => ?_, fun _ => by rw [h.1, h.2, hr]; exact ⟨rfl, rfl⟩⟩
      obtain rfl : r = r' := by simpa using h'
      exact absurd hk' hk

theorem lowering_iff : s.Lowers k ↔ ∃ l, s.leaseOf k = some l ∧ l.lowering = true := by
  unfold State.Lowers Lease.lowering
  constructor
  · rintro ⟨l, t, d, o, n, h1, h2⟩
    exact ⟨l, h1, by rw [h2]⟩
  · rintro ⟨l, h1, h2⟩
    rcases hx : l.trans with _ | x
    · simp [hx] at h2
    · cases x with
      | raise => simp [hx] at h2
      | lower t d o n => exact ⟨l, t, d, o, n, h1, hx⟩

/-- The drop of a lease credits its LOWER's fall, and moves no entry (R60). -/
theorem dropLease_credits : s.DropCredits (s.dropLease k) k ∧ (s.dropLease k).entryOf k = s.entryOf k := by
  have hentry : (s.dropLease k).alloc.queue = s.alloc.queue := by
    unfold State.dropLease; split
    · rfl
    · dsimp only; split
      · exact (creditVictim_frame (s := s.setLease k none)).2.2.2.2.2.2.1
      · rfl
  have he := entryOf_eq_of_queue (k := k) hentry
  refine ⟨⟨fun _ => ⟨fun hl => ?_, fun hl => ?_⟩, fun h1 _ h2 => ?_⟩, he⟩
  · obtain ⟨l, h1, h2⟩ := lowering_iff.1 hl
    have hf : s.commitment k - (s.setLease k none).commitment k = s.commitment k - s.floorOf k := by
      have : (s.setLease k none).commitment k = s.floorOf k := by
        show max (s.floorOf k) (Lease.term ((s.alloc.leases.set k none).get k)) = _
        rw [PerSlot.get_set_self]; simp [Lease.term]
      rw [this]
    unfold State.dropLease; rw [h1]; dsimp only; rw [if_pos h2, hf]
    exact creditVictim_credits (s := s) (u := s.setLease k none) ⟨rfl, rfl⟩
  · unfold State.dropLease; split
    · exact ⟨rfl, rfl⟩
    · rename_i l h1
      have h2 : ¬ l.lowering = true := fun h2 => hl (lowering_iff.2 ⟨l, h1, h2⟩)
      dsimp only; rw [if_neg h2]
      exact ⟨rfl, rfl⟩
  · rw [he] at h2; rw [h2] at h1; simp at h1

/-- What dropping a lease leaves (R12, R60, R116, R124, R134). -/
theorem dropLease_leaseGone (h : (s.leaseOf k).isSome = true) : s.LeaseGone (s.dropLease k) k :=
  ⟨dropLease_leaseOff h, dropLease_credits.1⟩

theorem isBeneficiary_congr {t : State} (h : t.alloc.reclaim.map Reclaim.slot = s.alloc.reclaim.map Reclaim.slot) :
    t.isBeneficiary k = s.isBeneficiary k := by
  unfold State.isBeneficiary
  cases h1 : t.alloc.reclaim <;> cases h2 : s.alloc.reclaim <;> simp_all

theorem dropLease_isBeneficiary : (s.dropLease k).isBeneficiary k = s.isBeneficiary k := by
  refine isBeneficiary_congr ?_
  have hcredit : ∀ (u : State) (f : Nat), (u.creditVictim k f).alloc.reclaim.map Reclaim.slot = u.alloc.reclaim.map Reclaim.slot := by
    intro u f; unfold State.creditVictim; split
    · rfl
    · rename_i r hr; split <;> simp [hr]
  unfold State.dropLease; split
  · rfl
  · dsimp only; split
    · exact hcredit (s.setLease k none) _
    · rfl

/-- The leaving of an entry touches the reclaim only where it is the beneficiary's (R63). -/
theorem removeEntry_reclaim : (s.isBeneficiary k = false ∨ s.entryOf k = none → s.ReclaimSame (s.removeEntry k)) ∧
    ((s.entryOf k).isSome = true → s.isBeneficiary k = true →
      (s.removeEntry k).alloc.reclaim = none ∧ (s.removeEntry k).alloc.earmark = 0) := by
  unfold State.removeEntry; split
  · rename_i h; exact ⟨fun _ => ⟨rfl, rfl⟩, fun h' => by rw [h] at h'; simp at h'⟩
  · rename_i e h
    dsimp only
    refine ⟨fun h' => ?_, fun _ h' => ?_⟩
    · rw [h'.resolve_right (by rw [h]; simp)]; exact ⟨rfl, rfl⟩
    · rw [if_pos h']
      unfold State.isBeneficiary at h'
      cases hr : s.alloc.reclaim with
      | none => rw [hr] at h'; simp at h'
      | some r =>
        have hr' : ((s.unqueue k).wantPass true).alloc.reclaim = some r := hr
        unfold State.abandonReclaim State.endReclaim; rw [hr']; exact ⟨rfl, rfl⟩

/-- A session end after the drop keeps the credit, unless the entry that leaves is the beneficiary's: the reclaim is abandoned then
(R60, R63). -/
theorem dropLease_teardown_leaseGone {c : Reason} {st : SessState} (h : (s.leaseOf k).isSome = true) :
    s.LeaseGone ((s.dropLease k).teardown k c st) k := by
  refine ⟨(dropLease_leaseOff h).teardown, ?_⟩
  obtain ⟨⟨hc, _⟩, he⟩ := dropLease_credits (s := s) (k := k)
  have hb := dropLease_isBeneficiary (s := s) (k := k)
  generalize s.dropLease k = u at *
  obtain ⟨hsame, hgone⟩ := removeEntry_reclaim (s := u) (k := k)
  have halloc : (u.teardown k c st).alloc = (u.removeEntry k).alloc := by
    unfold State.teardown; dsimp only; split <;> rfl
  have hnone : (u.teardown k c st).entryOf k = none := by
    unfold State.entryOf; rw [halloc]; exact entryOf_removeEntry_self
  unfold State.DropCredits
  rw [hnone]
  refine ⟨fun hx => ?_, fun h1 h2 _ => ?_⟩
  · have hs : u.ReclaimSame (u.teardown k c st) := by
      unfold State.ReclaimSame; rw [halloc]
      exact hsame (hx.elim (fun h' => .inr (he.trans h'.symm)) (fun h' => .inl (hb.trans h')))
    obtain ⟨a, b⟩ := hc (.inl he)
    refine ⟨fun hl => ?_, fun hl => ?_⟩
    · obtain ⟨a1, a2⟩ := a hl
      refine ⟨fun r hr hk => ?_, fun hn => ?_⟩
      · rw [hs.2, hs.1]; exact a1 r hr hk
      · exact ⟨hs.1.trans (a2 hn).1, hs.2.trans (a2 hn).2⟩
    · exact ⟨hs.1.trans (b hl).1, hs.2.trans (b hl).2⟩
  · rw [halloc]; exact hgone (by rw [he]; exact h1) (hb.trans h2)

/-- Without a reclaim a session end posts nothing of its own. -/
theorem teardown_notices {c : Reason} {st : SessState} (h : s.alloc.reclaim = none) :
    (s.teardown k c st).notices = s.notices ∧ (s.teardown k c st).alloc.reclaim = none := by
  have hr : (s.removeEntry k).notices = s.notices ∧ (s.removeEntry k).alloc.reclaim = none := by
    unfold State.removeEntry; split
    · exact ⟨rfl, h⟩
    · dsimp only
      have : s.isBeneficiary k = false := by unfold State.isBeneficiary; rw [h]
      rw [this]; exact ⟨rfl, h⟩
  unfold State.teardown; dsimp only; split
  · rw [State.modLine_notices, notices_enter, State.modMon_notices, State.modSess_notices, State.modLine_notices,
      State.modLine_alloc, alloc_enter, State.modMon_alloc, State.modSess_alloc, State.modLine_alloc]
    exact hr
  · rw [notices_enter, State.modMon_notices, State.modSess_notices, State.modLine_notices,
      alloc_enter, State.modMon_alloc, State.modSess_alloc, State.modLine_alloc]
    exact hr

/-- Dropping a lease without a reclaim leaves none. -/
theorem dropLease_reclaim (h : s.alloc.reclaim = none) : (s.dropLease k).alloc.reclaim = none := by
  unfold State.dropLease; split
  · exact h
  · dsimp only; split
    · show ((s.setLease k none).creditVictim k _).alloc.reclaim = none
      unfold State.creditVictim
      have : (s.setLease k none).alloc.reclaim = none := h
      rw [this]; exact h
    · exact h

end Sys2Proof.Machine
end

