-- ==== Sys2Proof/Tests/Slice0.lean ====
section
/-! SUPPORT. Tests of the model: the checks of WellFormed, one small test or two for each command with the result worked out by
hand from the manual's rules, and for every statement with hypotheses a state and operands that meet them. -/

namespace Sys2Proof.Tests

open Sys2Proof Sys2Proof.Machine

-- The tests are elaborated one after the other: waiting on one another in parallel they need a thread each.
set_option Elab.async false

/-! ### Small states -/

/-- The descriptor of the test modules: three tiers of 50, 100 and 150 qW. -/
def module3 : Descriptor := ⟨9, 5, 0, 0, [50, 100, 150]⟩

/-- Slot 0 enabled DEFERRABLE rank 2 floor 20 cap 120 AUTO, slot 1 enabled ESSENTIAL rank 3 floor 20 cap 200 HOST, the rest
disabled. -/
def policies : PerSlot PolicyRecord :=
  ((PerSlot.all PolicyRecord.factory).set 0 ⟨true, .deferrable, 2, 20, 120, .auto⟩).set 1 ⟨true, .essential, 3, 20, 200, .host⟩

/-- A session record in state `st`. -/
def sessIn (st : SessState) (tag : Byte) : Session :=
  { Session.reset with
    state := st, tag := tag, admitFlag := st.isOpen
    desc := if st.isOpen || st == .faulted || st == .rejected then some module3 else none }

/-- The ramp record that goes with state `st`. -/
def rampIn (st : SessState) (tag : Byte) : Ramp :=
  match st with
  | .rampWait => { Ramp.reset with state := .queued, tag := tag, aux := true }
  | .ramping => { Ramp.reset with state := .ramping, tag := tag, timer := 40, gate := true, aux := true }
  | _ => { Ramp.reset with gate := st.gateOn, aux := st.auxOn }

/-- The lease that goes with state `st`: tier 2 of `module3`. -/
def leaseIn (st : SessState) (tag : Byte) : Option Lease :=
  if st.leased then some ⟨tag, 2, 100, false, none⟩ else none

/-- `s` with committed at the sum of the commitments. -/
def balanced (s : State) : State := { s with alloc := { s.alloc with committed := sumSlots s.commitment } }

/-- A loaded part with available 300, slot 0 in state `a` with tag 7, slot 1 in state `b` with tag 8, the rest VACANT. -/
def two (a b : SessState) : State :=
  balanced { State.reset with
    store := { PolicyStore.reset with startDone := true }
    cmd := { CommandUnit.reset with
      policy := policies, settings := { Settings.factory with supplyLimit := 400, reserve := 100 } }
    sess := ((PerSlot.all Session.reset).set 0 (sessIn a 7)).set 1 (sessIn b 8)
    alloc := { Allocator.reset with leases := ((PerSlot.all none).set 0 (leaseIn a 7)).set 1 (leaseIn b 8) }
    power := { PowerPath.reset with
      slots := ((PerSlot.all Ramp.reset).set 0 (rampIn a 7)).set 1 (rampIn b 8)
      queue := (if a = .rampWait then [0] else []) ++ (if b = .rampWait then [1] else [])
      holder := if a = .ramping then some 0 else if b = .ramping then some 1 else none } }

/-- Slot 0's lease with transition `x`. -/
def moving (x : Transition) (s : State) : State :=
  balanced { s with alloc := { s.alloc with leases := s.alloc.leases.set 0 (some ⟨7, 2, 100, false, some x⟩) } }

/-- A LOWER to tier 1 with 30 ms left. -/
def lowerTo1 : Transition := .lower 1 50 .host 30

/-- An entry of slot `k`. -/
def entryOf (k : Slot) (tag : Byte) (wanted least : Nat) : Entry :=
  ⟨k, tag, .claim, wanted, least, if k = 0 then .deferrable else .essential, if k = 0 then 2 else 3, 0⟩

/-- The Demand Queue `q`. -/
def waiting (q : List Entry) (s : State) : State := { s with alloc := { s.alloc with queue := q } }

/-- A reclaim for slot 1 with shortfall 30 and victim slot 0. -/
def reclaiming (s : State) : State := { s with alloc := { s.alloc with reclaim := some ⟨1, 8, 30, [0]⟩ } }

/-- Slot `k`'s line changed. -/
def onLine (k : Slot) (f : Line → Line) (s : State) : State := { s with line := s.line.set k (f (s.line.get k)) }

/-- Slot `k`'s monitor record changed. -/
def onMon (k : Slot) (f : MonSlot → MonSlot) (s : State) : State := s.modMon k f

/-- Slot `k`'s presence timer. -/
def withPresence (k : Slot) (p : Presence) (s : State) : State := s.modSess k (fun x => { x with presence := p })

/-- The settings changed. -/
def withSettings (f : Settings → Settings) (s : State) : State := s.modSettings f

/-- A frame that carries `m` with tag 7. -/
def frame (m : DownMsg) (c : Option Channel) : Frame := ⟨m, 7, true, c⟩

/-- Slot 0's line with a frame due and a PROBE waiting for the poll timer, its retries exhausted. -/
def waitingProbe (m : Option DownMsg) (byPoll : Bool) (st : SessState) : State :=
  onLine 0 (fun l => { l with
    pendingFrame := some ⟨⟨.probe, 0, true, none⟩, .waits, true⟩, retries := 2, seq := true
    phase := .due 0 byPoll, outSession := m }) (two st .on)

/-- `p` holds of the state after `c`. -/
def after (c : Instr) (s : State) (p : State → Bool) : Bool :=
  match exec c s with
  | .next t => p t
  | .fault _ => false
  | .refused _ => false

/-! ### WellFormed -/

theorem test_wf_scan : (Instr.scan (PerSlot.all ⟨8192, 0⟩) 0).wellFormed = false ∧
    (Instr.scan (PerSlot.all ⟨0, 1024⟩) 0).wellFormed = false ∧ (Instr.scan (PerSlot.all ⟨8191, 1023⟩) 1024).wellFormed = false ∧
    (Instr.scan (PerSlot.all ⟨8191, 1023⟩) 1023).wellFormed = true := by decide
theorem test_wf_sag : (Instr.sagBegin 1024).wellFormed = false ∧ (Instr.sagBegin 1023).wellFormed = true := by decide
theorem test_wf_response : (Instr.responseComplete 0 (List.replicate 26 0) false).wellFormed = false ∧
    (Instr.responseComplete 0 (List.replicate 25 0) false).wellFormed = true := by decide
theorem test_wf_hello : (Instr.hello 0 0 0 0 0 0 [1, 2, 3, 4, 5, 6, 7]).wellFormed = false ∧
    (Instr.hello 0 0 0 0 0 0 [1, 2, 3, 4, 5, 6]).wellFormed = true := by decide
theorem test_wf_budgetRead : (Instr.budgetRegisterRead 0x03).wellFormed = false ∧
    (Instr.budgetRegisterRead 0x0B).wellFormed = false ∧ (Instr.budgetRegisterRead 0x0A).wellFormed = true := by decide
theorem test_wf_registerWrite : (Instr.registerWrite 0x02 0).wellFormed = false ∧
    (Instr.registerWrite 0x15 0).wellFormed = false ∧ (Instr.registerWrite 0x19 0).wellFormed = false ∧
    (Instr.registerWrite 0x0B 0).wellFormed = true := by decide

/-! ### The shelf of chapter 12 -/

/-- The policy of the shelf: slots 0 to 2, available 480. -/
def shelfImage (g : Word) : Image :=
  ⟨g, (((PerSlot.all PolicyRecord.factory).set 0 ⟨true, .essential, 6, 60, 4095, .auto⟩).set 1
      ⟨true, .deferrable, 3, 0, 4095, .auto⟩).set 2 ⟨true, .deferrable, 1, 20, 4095, .host⟩,
    { Settings.factory with supplyLimit := 520, reserve := 40 }⟩

/-- The shelf with its three slots in the given states and leases. -/
def shelf (x0 x1 x2 : SessState × Option Lease) : State :=
  let sess := fun (x : SessState × Option Lease) (pref : Byte) (draws : List Word) =>
    { Session.reset with
      state := x.1, tag := if x.1.isOpen then 1 else 0, admitFlag := x.1.isOpen
      desc := if x.1.isOpen then some ⟨1, 1, 0, pref, draws⟩ else none }
  balanced { State.reset with
    store := { PolicyStore.reset with startDone := true }
    cmd := { CommandUnit.reset with policy := (shelfImage 12).records, settings := (shelfImage 12).settings }
    sess := (((PerSlot.all Session.reset).set 0 (sess x0 2 [50, 120, 260])).set 1 (sess x1 0 [40, 100, 160])).set 2
      (sess x2 0 [30, 90])
    alloc := { Allocator.reset with leases := (((PerSlot.all none).set 0 x0.2).set 1 x1.2).set 2 x2.2 }
    power := { PowerPath.reset with
      slots := (((PerSlot.all Ramp.reset).set 0 (rampIn x0.1 1)).set 1 (rampIn x1.1 1)).set 2 (rampIn x2.1 1)
      holder := if x2.1 = .ramping then some 2 else if x0.1 = .ramping then some 0 else none } }

/-- A lease of the shelf. -/
def held (tier draw : Nat) (x : Option Transition) : Option Lease := some ⟨1, tier, draw, false, x⟩

/-- All three leases ON (section 12.2). -/
def shelfOn : State := shelf (.on, held 2 120 none) (.on, held 3 160 none) (.on, held 2 90 none)

/-- Slot 2 lowered for slot 0's claim, its module silent and drawing 88 (section 12.2). -/
def shelfReclaim : State :=
  let s := shelf (.on, held 2 120 none) (.on, held 3 160 none) (.on, held 2 90 (some (.lower 1 30 .preempt 0)))
  (waiting [⟨0, 1, .claim, 3, 3, .essential, 6, 0⟩] { s with alloc := { s.alloc with
    reclaim := some ⟨0, 1, 30, [2]⟩ } }).modMon 2 (fun m => { m with power := 88 })

theorem test_shelf_load : after .policyLoad { State.reset with
      store := { PolicyStore.reset with copyA := .whole (shelfImage 12), copyB := .whole (shelfImage 11) } }
    (fun t => t.alloc.committed = 80 ∧ t.free = 400 ∧ t.store.active = .a ∧
      t.notices.records = [⟨0, .start, none, .none, false, 12⟩]) = true := by decide +kernel
theorem test_shelf_hello : after (.hello 1 0 1 1 0 0 [40, 100, 160]) (shelf (.listening, none) (.listening, none) (.listening, none))
    (fun t => t.alloc.committed = 240 ∧ t.free = 240 ∧ (t.sessOf 1).state = .ramping ∧ t.grantedTier 1 = 3 ∧
      t.notices.records.map Notice.kind = [.sessionOpen, .queued, .granted]) = true := by decide +kernel
theorem test_shelf_claim : after (.claim 0 1 3 3) shelfOn
    (fun t => t.alloc.committed = 370 ∧ t.alloc.reclaim = some ⟨0, 1, 30, [2]⟩ ∧ t.isVictim 2 = true ∧
      (t.lineOf 0).outClaim = some (.hold 0) ∧
      t.notices.records.map (fun n => (n.kind, n.value)) = [(.queued, 0), (.recallIssued, 1), (.reclaimBegin, 30)]) = true := by
  decide +kernel
theorem test_shelf_deadline : after (.recallDeadline 2) shelfReclaim
    (fun t => t.alloc.committed = 440 ∧ t.alloc.earmark = 0 ∧ t.free = 40 ∧ (t.sessOf 2).state = .standby ∧
      (t.sessOf 2).admitFlag = false ∧
      t.notices.records.map (fun n => (n.kind, n.value)) = [(.cut, 2), (.granted, 3), (.reclaimEnd, 1)]) = true := by
  decide +kernel
/-- R18, R60, R64: the last victim's LOWER ends with a fall of 0, its floor having been raised; the pass that follows does not
grant the beneficiary, and the reclaim is UNMET. -/
theorem test_deadline_unmet : after (.recallDeadline 0) (reclaiming (waiting [entryOf 1 8 3 3] (moving lowerTo1
      (let s := two .on .on
       { s with cmd := { s.cmd with
          policy := s.cmd.policy.set 0 ⟨true, .deferrable, 2, 100, 120, .auto⟩
          settings := { s.cmd.settings with supplyLimit := 340 } } }))))
    (fun t => t.alloc.committed = 200 ∧ t.alloc.reclaim = none ∧ (t.entryOf 1).isSome ∧
      t.notices.records.map (fun n => (n.kind, n.value)) = [(.recallSilent, 1), (.reclaimEnd, 3)]) = true := by decide +kernel
theorem test_shelf_setBudget : after (.setBudget 300 40)
      (shelf (.on, held 3 260 none) (.on, held 3 160 none) (.standby, none))
    (fun t => t.alloc.state = .shedding ∧ t.alloc.committed = 440 ∧ t.cmd.result = .ok ∧
      t.leaseOf 1 = held 3 160 (some (.lower 0 0 .shed 200)) ∧ t.leaseOf 0 = held 3 260 (some (.lower 2 120 .shed 200))) = true := by
  decide +kernel
theorem test_shelf_ready : after (.ready 0 1 2)
      (let s := shelf (.on, held 3 260 (some (.lower 2 120 .shed 90))) (.standby, none) (.standby, none)
       waiting [⟨1, 1, .restore, 3, 1, .deferrable, 3, 0⟩] (withSettings (fun x => { x with supplyLimit := 300 })
         { s with alloc := { s.alloc with state := .shedding } }))
    (fun t => t.alloc.committed = 240 ∧ t.alloc.state = .running ∧ (t.leaseOf 1).map Lease.short = some true ∧
      t.grantedTier 1 = 2 ∧ t.notices.records.map (fun n => (n.kind, n.value)) =
        [(.recallDone, 2), (.shedEnd, 140), (.granted, 2)]) = true := by decide +kernel
theorem test_shelf_sagBegin : after (.sagBegin 191)
      (shelf (.on, held 3 260 none) (.on, held 3 160 none) (.ramping, some ⟨1, 1, 30, true, none⟩))
    (fun t => t.alloc.committed = 280 ∧ t.alloc.state = .sagHold ∧ t.power.hold = true ∧ t.power.holder = none ∧
      t.alloc.queue.map (fun e => (e.slot, e.wanted, e.least)) = [(1, 3, 1), (2, 1, 1)]) = true := by decide +kernel
theorem test_shelf_sagEnd : after .sagEnd
      (let s := shelf (.on, held 3 260 none) (.standby, none) (.standby, none)
       waiting [⟨1, 1, .restore, 3, 1, .deferrable, 3, 0⟩, ⟨2, 1, .restore, 1, 1, .deferrable, 1, 0⟩] { s with
         alloc := { s.alloc with state := .sagHold, sagCondition := true }
         power := { s.power with hold := true }, mon := { s.mon with sag := .holdoff } })
    (fun t => t.alloc.committed = 450 ∧ t.free = 30 ∧ t.power.holder = some 1 ∧ t.power.queue = [2] ∧
      t.alloc.state = .running) = true := by decide +kernel

/-! ### One small test for each other command -/

theorem test_deviceReset : after (.deviceReset true) (two .on .on)
    (fun t => t.store.startDone = false ∧ (t.sessOf 0).state = .vacant ∧ t.leaseOf 0 = none) = true := by decide +kernel
theorem test_insertion : after (.insertion 3) (withPresence 3 (.toInsertion 50) (two .on .on))
    (fun t => (t.sessOf 3).state = .barred ∧ (t.rampOf 3).aux = false) = true := by decide +kernel
theorem test_removal : after (.removal 0) (withPresence 0 (.toRemoval 2) (two .on .standby))
    (fun t => (t.sessOf 0).state = .vacant ∧ t.alloc.committed = 40 ∧
      t.notices.records.map (fun n => (n.kind, n.value)) = [(.cut, 2), (.sessionClosed, 7)]) = true := by decide +kernel
theorem test_scan_saturates : after (.scan (PerSlot.all ⟨9000, 2000⟩) 240) (two .vacant .vacant)
    (fun t => (t.monOf 5).power = 8191 ∧ (t.monOf 5).voltage = 1023 ∧ (t.monOf 5).peak = 8191 ∧
      (t.monOf 5).average = 511) = true := by decide +kernel
theorem test_scan_strike : after (.scan (PerSlot.all ⟨109, 200⟩) 240) (onMon 0 (fun m => { m with run := 2 }) (two .on .standby))
    (fun t => t.raised = [.overdrawStrike 0 7 .first] ∧ (t.monOf 0).struck = true ∧ (t.monOf 0).run = 0) = true := by decide +kernel
theorem test_outputGood : after (.outputGood 0) (onMon 0 (fun m => { m with watchArmed := true, watchTag := 7, watchCount := 1 })
      (two .ramping .standby))
    (fun t => t.raised = [.rampDone 0 7] ∧ (t.monOf 0).watchArmed = false) = true := by decide +kernel
theorem test_rampDone : after (.rampDone 0 7) (two .ramping .rampWait)
    (fun t => (t.sessOf 0).state = .on ∧ (t.lineOf 0).outClaim = some (.grant 2 false) ∧ t.power.holder = some 1) = true := by
  decide +kernel
theorem test_rampStart : after .rampStart (two .rampWait .rampWait)
    (fun t => t.power.holder = some 0 ∧ t.power.queue = [1] ∧ (t.rampOf 0).timer = 40 ∧ (t.rampOf 0).gate = true) = true := by
  decide +kernel
theorem test_rampTimeout : after (.rampTimeout 0) (two .ramping .standby)
    (fun t => (t.rampOf 0).state = .backoff ∧ (t.rampOf 0).retry = 1 ∧ (t.rampOf 0).timer = 100 ∧ t.alloc.committed = 120) = true := by
  decide +kernel
theorem test_backoffEnd : after (.backoffEnd 0)
      ((two .rampWait .ramping).modRamp 0 (fun r => { r with state := .backoff, retry := 1 }) |> fun s =>
        { s with power := { s.power with queue := [] } })
    (fun t => (t.rampOf 0).state = .queued ∧ t.power.queue = [0] ∧ (t.rampOf 0).retry = 1) = true := by decide +kernel
theorem test_overdrawStrike : after (.overdrawStrike 0 7 .second) (two .on .standby)
    (fun t => (t.sessOf 0).state = .faulted ∧ (t.lineOf 0).outSession = some (.sever .overdraw) ∧
      t.notices.records.map (fun n => (n.kind, n.value)) = [(.overdrawStrike, 2), (.faulted, 2), (.sessionClosed, 7)]) = true := by
  decide +kernel
theorem test_overdrawStrike_inRamp : after (.overdrawStrike 0 7 .first) (two .ramping .standby)
    (fun t => t.leaseOf 0 = leaseIn .ramping 7 ∧
      t.notices.records.map (fun n => (n.kind, n.value)) = [(.overdrawStrike, 1)]) = true := by decide +kernel
theorem test_strikeClear : after (.strikeClear 0) (onMon 0 (fun m => { m with struck := true, clean := 255 }) (two .on .standby))
    (fun t => (t.monOf 0).struck = false ∧ (t.monOf 0).clean = 0) = true := by decide +kernel
theorem test_pollTimer : after (.pollTimer 0) (onLine 0 (fun l => { l with poll := some 0 }) (two .standby .standby))
    (fun t => (t.lineOf 0).phase = .due 0 true ∧ (t.lineOf 0).poll = none) = true := by decide +kernel
theorem test_frameSend_poll : after (.frameSend 0) (onLine 0 (fun l => { l with phase := .due 0 true }) (two .standby .standby))
    (fun t => (t.lineOf 0).seq = true ∧ (t.lineOf 0).wire.take 3 = [0x01, 7, 0x80]) = true := by decide +kernel
/-- R100: a frame whose HOLD was removed is given up, so the RECALL goes before a GRANT queued in the HOLD's channel. -/
theorem test_frameSend_removed : after (.frameSend 0) (onLine 0 (fun l => { l with
      phase := .due 0 false, pendingFrame := some ⟨frame (.hold 0) (some .claim), .removed, true⟩, retries := 1
      outRecall := some (.recall 1 20), outClaim := some (.grant 2 false) }) (two .on .standby))
    (fun t => (t.lineOf 0).wire.take 1 = [0x06] ∧ (t.lineOf 0).retries = 0) = true := by decide +kernel
/-- R100 step 3, R104: a PROBE whose retries are exhausted gives way to the WELCOME of a HELLO, in a new frame; without a message
it goes again with its bit. -/
theorem test_frameSend_waiting : after (.frameSend 0) (waitingProbe (some (.welcome 7)) false .standby)
    (fun t => (t.lineOf 0).wire.take 1 = [0x03] ∧ (t.lineOf 0).seq = false ∧ (t.lineOf 0).retries = 0) = true ∧
  after (.frameSend 0) (waitingProbe none true .listening)
    (fun t => (t.lineOf 0).wire.take 3 = [0x02, 0, 0x80] ∧ (t.lineOf 0).seq = true ∧ (t.lineOf 0).retries = 2) = true := by
  decide +kernel
theorem test_lineGapTimeout : after (.lineGapTimeout 0) (onLine 0 (fun l => { l with phase := .due 3 true }) (two .standby .standby))
    (fun t => (t.lineOf 0).counters.noResponse = 1 ∧ (t.lineOf 0).wire = []) = true := by decide +kernel
theorem test_responseTimeout : after (.responseTimeout 0) (onLine 0 (fun l => { l with
      phase := .awaiting (frame .poll none) 1, pendingFrame := some ⟨frame .poll none, .stands, true⟩, retries := 2 }) (two .standby .standby))
    (fun t => (t.lineOf 0).lost = true ∧ (t.lineOf 0).grace = some 500 ∧
      t.notices.records.map (fun n => (n.kind, n.value)) = [(.linkLost, 7)]) = true := by decide +kernel
/-- R102: the RECALL of the frame in flight was removed with its LOWER; the failed attempt leaves the outbox empty and starts the
poll timer. -/
theorem test_responseTimeout_removed : after (.responseTimeout 0) (onLine 0 (fun l => { l with
      phase := .awaiting (frame (.recall 1 20) (some .recall)) 1
      pendingFrame := some ⟨frame (.recall 1 20) (some .recall), .removed, true⟩ }) (two .on .standby))
    (fun t => (t.lineOf 0).phase = .idle ∧ (t.lineOf 0).poll = some 20 ∧ (t.lineOf 0).pendingFrame = none) = true := by
  decide +kernel
theorem test_responseBegin : after (.responseBegin 0) (onLine 0 (fun l => { l with phase := .awaiting (frame .poll none) 1 })
      (two .standby .standby))
    (fun t => (t.lineOf 0).phase = .receiving (frame .poll none) 1) = true := by decide +kernel
/-- CLAIM(3, 1) with tag 7 and sequence bit 1; the CRC-8 of 42 07 82 03 01 with polynomial 07, worked out apart from
the model, is 8B. -/
theorem test_responseComplete : after (.responseComplete 0 [0x42, 7, 0x82, 3, 1, 0x8B] false) (onLine 0 (fun l => { l with
      seq := true, phase := .awaiting (frame .poll none) 1, pendingFrame := some ⟨frame .poll none, .stands, true⟩ }) (two .on .standby))
    (fun t => t.raised = [.claim 0 7 3 1] ∧ (t.lineOf 0).pendingFrame = none) = true := by decide +kernel
theorem test_linkGraceExpiry : after (.linkGraceExpiry 0) (onLine 0 (fun l => { l with lost := true, grace := some 0 }) (two .on .standby))
    (fun t => (t.sessOf 0).state = .listening ∧ (t.lineOf 0).outSession = none ∧
      t.notices.records.map (fun n => (n.kind, n.value)) = [(.cut, 2), (.sessionClosed, 7)]) = true := by decide +kernel
theorem test_yield : after (.yieldTier 0 7 1) (two .on .standby)
    (fun t => t.grantedTier 0 = 1 ∧ t.alloc.committed = 70 ∧
      t.notices.records.map (fun n => (n.kind, n.reason, n.value)) = [(.recallDone, .yielded, 1)]) = true := by decide +kernel
theorem test_moduleFault : after (.moduleFault 0 7 33) (two .on .standby)
    (fun t => (t.sessOf 0).state = .standby ∧ (t.sessOf 0).lastEnd = .moduleFault ∧
      t.notices.records.map (fun n => (n.kind, n.reason, n.value)) = [(.cut, .moduleFault, 33)]) = true := by decide +kernel
theorem test_noneMessage : after (.noneMessage 0 7) (two .rampWait .on) (fun t => t = two .rampWait .on) = true := by decide +kernel
theorem test_claim_outOfPlace : after (.claim 0 7 3 1) (two .rampWait .on) (fun t => (t.sessOf 0).protoErrors = 1) = true := by
  decide +kernel
theorem test_applyPolicy : after (.applyPolicy 0) { two .standby .standby with
      cmd := { (two .standby .standby).cmd with staging := ⟨true, .deferrable, 2, 90, 120, .auto⟩ } }
    (fun t => t.cmd.result = .ok ∧ t.alloc.committed = 110 ∧ (t.policyOf 0).floor = 90 ∧ t.host.cmdDone = true) = true := by
  decide +kernel
theorem test_admit : after (.admitSlot 0) ((two .standby .standby).modSess 0 (fun x => { x with admitFlag := false }))
    (fun t => (t.sessOf 0).state = .ramping ∧ t.grantedTier 0 = 2 ∧ (t.leaseOf 0).map Lease.short = some true) = true := by
  decide +kernel
theorem test_evict : after (.evict 0 1) (two .on .standby)
    (fun t => (t.sessOf 0).state = .standby ∧ (t.sessOf 0).admitFlag = false ∧
      t.notices.records.map (fun n => (n.kind, n.reason, n.value)) = [(.cut, .host, 2)]) = true := by decide +kernel
theorem test_setTier : after (.setTier 0 1) (two .on .standby)
    (fun t => t.leaseOf 0 = some ⟨7, 2, 100, false, some (.lower 1 50 .host 200)⟩ ∧
      (t.lineOf 0).outRecall = some (.recall 1 20)) = true := by decide +kernel
theorem test_clearFault : after (.clearFault 0) (two .faulted .standby)
    (fun t => (t.sessOf 0).state = .listening ∧ (t.sessOf 0).desc = none ∧ (t.lineOf 0).poll = some 20) = true := by decide +kernel
theorem test_rescan : after (.rescan 0) (two .rejected .standby)
    (fun t => (t.sessOf 0).state = .listening ∧ (t.sessOf 0).desc = none ∧ t.cmd.result = .ok) = true := by decide +kernel
theorem test_storePolicy : after .storePolicy (two .on .on)
    (fun t => t.store.state = .erasing ∧ t.busy = true ∧ t.store.copyA = .partly ∧
      t.store.snapshot.map Image.generation = some 1) = true := by decide +kernel
theorem test_eraseComplete : after .eraseComplete { two .on .on with store := { (two .on .on).store with state := .erasing } }
    (fun t => t.store.state = .programming ∧ t.store.copyA = .blank) = true := by decide +kernel
theorem test_programComplete : after .programComplete { two .on .on with
      store := { (two .on .on).store with state := .programming, snapshot := some (shelfImage 1) } }
    (fun t => t.store.state = .verifying ∧ t.store.copyA = .unchecked (shelfImage 1)) = true := by decide +kernel
theorem test_verifyComplete : after (.verifyComplete .success) { two .on .on with
      store := { (two .on .on).store with state := .verifying, snapshot := some (shelfImage 1) } }
    (fun t => t.store.active = .a ∧ t.store.activeGen = 1 ∧ t.busy = false ∧
      t.notices.records.map (fun n => (n.kind, n.value)) = [(.storeDone, 1)]) = true := by decide +kernel
theorem test_setBackfill : after (.setBackfill true) (two .on .on)
    (fun t => t.settings.backfill = true ∧ t.settings.preempt = true) = true := by decide +kernel
theorem test_setPreempt : after (.setPreempt false) (two .on .on) (fun t => t.settings.preempt = false) = true := by decide +kernel
theorem test_setIntEnables : after (.setIntEnables true false)
      { two .on .on with notices := ⟨[⟨0, .start, none, .none, false, 0⟩], 1, 0⟩ }
    (fun t => t.intAsserted) = true := by decide +kernel
theorem test_portReset : after .portReset { two .on .on with notices := ⟨[⟨0, .start, none, .none, false, 0⟩], 1, 3⟩ }
    (fun t => t.notices.records = [] ∧ t.notices.lostCount = 0 ∧ t.alloc = (two .on .on).alloc) = true := by decide +kernel
theorem test_settingWrite : after (.settingWrite .rampCtrl 0x0205) (two .on .on)
    (fun t => t.settings.rampTimeout = 5 ∧ t.settings.rampRetries = 2 ∧ t.host.badWrite = false) = true := by decide +kernel
theorem test_settingWrite_bad : after (.settingWrite .pollPeriod 4) (two .on .on)
    (fun t => t.settings.pollPeriod = 20 ∧ t.host.badWrite = true) = true := by decide +kernel
theorem test_passLimitWrite : after (.passLimitWrite 1) (waiting [{ entryOf 1 8 2 2 with passCount := 3 }]
      (onLine 1 (fun l => { l with lost := true }) (two .standby .standby)))
    (fun t => t.alloc.queue.map Entry.passCount = [1] ∧ t.settings.passLimit = 1) = true := by decide +kernel
theorem test_statusW1C : after (.statusW1C 0x0008) { two .on .on with
      host := { HostPort.reset with cmdDone := true, badWrite := true } }
    (fun t => t.host.cmdDone = false ∧ t.host.badWrite = true) = true := by decide +kernel
theorem test_tableSelWrite : after (.tableSelWrite 0x0601) { two .on .on with host := { HostPort.reset with wordPtr := 2 } }
    (fun t => t.host.wordPtr = 0 ∧ t.host.tableSel = 0x0601) = true := by decide +kernel
theorem test_tableDataRead : after .tableDataRead (onMon 1 (fun m => { m with power := 33, peak := 44 }) { two .on .on with
      host := { HostPort.reset with tableSel := 0x0601 } })
    (fun t => t.host.sdo = 33 ∧ (t.monOf 1).peak = 0 ∧ t.host.wordPtr = 1) = true := by decide +kernel
theorem test_tableDataWrite : after (.tableDataWrite 0x0053) { two .on .on with host := { HostPort.reset with tableSel := 0x0100 } }
    (fun t => t.cmd.staging = ⟨true, .essential, 5, 0, 4095, .host⟩ ∧ t.host.wordPtr = 1) = true := by decide +kernel
theorem test_noticeDataRead : after .noticeDataRead { two .on .on with notices := ⟨[⟨9, .start, none, .none, false, 12⟩], 10, 0⟩ }
    (fun t => t.notices.records = [] ∧ t.host.sdo = 0x0901 ∧ t.host.noticePtr = 1) = true := by decide +kernel
theorem test_budgetRegisterRead : after (.budgetRegisterRead 0x09) (two .on .standby)
    (fun t => t.host.sdo = 180 ∧ (t.host.budget.map BudgetCapture.committed) = some 120) = true := by decide +kernel
theorem test_registerWrite : after (.registerWrite 0x0B 0x0203) (two .on .on)
    (fun t => t.host.armed = true ∧ t.host.cmd = 0x0203) = true := by decide +kernel
/-- R157: a word that sets INT_CMD_EN and PORT_RESET together leaves the enable set after the reset. -/
theorem test_registerWrite_control : after (.registerWrite 0x03 0x0019) { two .on .on with
      host := { HostPort.reset with cmdDone := true, intNoticeEn := true } }
    (fun t => t.settings.backfill = true ∧ t.settings.preempt = false ∧ t.host.intNoticeEn = false ∧ t.host.intCmdEn = true ∧
      t.host.cmdDone = false) = true := by decide +kernel
/-- The address byte of the burst of section 11.1. -/
theorem test_addressByte : addressByte true 0x0B = 0x8B ∧ Burst.opened 0x8B = ⟨true, 0x0B⟩ ∧ Burst.opened 0x19 = ⟨false, 0x19⟩ := by
  decide
/-- R154 with log entry 30: a read after a write burst ends the transaction, and its armed command is taken. -/
theorem test_noticeDataRead_newTransaction : after .noticeDataRead { two .on .rejected with
      host := { HostPort.reset with burst := some ⟨true, 0x0C⟩, armed := true, cmd := 0x0701 } }
    (fun t => (t.sessOf 1).state = .listening ∧ t.host.cmdDone = true ∧ t.host.burst = some ⟨false, 0x1A⟩) = true := by
  decide +kernel
/-- The catalogued check value of this CRC-16, of the nine bytes 31 to 39 (hexadecimal), is 29B1. -/
theorem test_crc16 : crc16 ((List.range 9).flatMap (fun i => (List.range 8).map (fun b => (0x31 + i).testBit (7 - b)))) = 0x29B1 := by
  decide +kernel
theorem test_transactionEnd : after .transactionEnd { two .on .standby with
      host := { HostPort.reset with armed := true, cmd := 0x0200, arg0 := 500, arg1 := 60 } }
    (fun t => t.available = 440 ∧ t.host.armed = false ∧ t.host.cmdDone = true) = true := by decide +kernel
theorem test_presentChange : after (.presentChange 5 true) (two .on .on)
    (fun t => t.present.get 5 = true ∧ (t.sessOf 5).presence = .toInsertion 0) = true := by decide +kernel

/-! ### The hypotheses of the statements are met

One theorem for each statement that has hypotheses: for each of its clauses a state and operands that meet the clause's
hypotheses together, at the boundary where the clause has one. -/

/-- Slot 1's entry waits in ON with the beneficiary's mark. -/
def beneficiary : State := reclaiming (waiting [entryOf 1 8 3 3] (moving lowerTo1 (two .on .on)))

/-- `s` with the sag detector in state `x`. -/
def detector (x : SagState) (low : Nat) (s : State) : State := { s with mon := { s.mon with sag := x, low := low } }

/-- Two VALID copies with the given generations, before the load. -/
def copies (a b : Word) : State :=
  { State.reset with store := { PolicyStore.reset with copyA := .whole (shelfImage a), copyB := .whole (shelfImage b) } }

/-- Slot 0's line with `f` pending and awaiting its response. -/
def inFlight (f : Frame) (st : SessState) : State :=
  onLine 0 (fun l => { l with pendingFrame := some ⟨f, .stands, true⟩, seq := true, phase := .awaiting f 0 }) (two st .standby)

/-- The STAGING record `r`. -/
def staged (r : PolicyRecord) (s : State) : State := { s with cmd := { s.cmd with staging := r } }

theorem wit_AnEmptyQueueLetsTheBlockRunOn :
    (State.reset.pending = [] ∧ State.reset.store.startDone = false) ∧
    (let s := two .on .on
     s.pending = [] ∧ s.store.startDone = true ∧ s.raised = [] ∧ s.dueEvent = none) ∧
    (let s := withPresence 5 (.toInsertion 50) (two .on .on)
     s.raised = [] ∧ s.dueEvent = some (.insertion 5)) ∧
    ({ two .on .on with raised := [.sagBegin 9] }).raised = [.sagBegin 9] ∧
    (withPresence 0 (.toRemoval 2) (two .on .on)).dueEvent = some (.removal 0) ∧
    (withPresence 0 (.toRemoval 1) (two .on .on)).dueEvent = none ∧
    ((two .ramping .on).modRamp 0 (fun r => { r with timer := 0 })).dueEvent = some (.rampTimeout 0) ∧
    (moving (.lower 1 50 .host 0) (two .on .on)).dueEvent = some (.recallDeadline 0) ∧
    (onLine 1 (fun l => { l with phase := .due 3 false }) (two .on .on)).dueEvent = some (.lineGapTimeout 1) ∧
    (onLine 1 (fun l => { l with phase := .awaiting (frame .poll none) 1 }) (two .on .on)).dueEvent =
      some (.responseTimeout 1) ∧
    (onLine 1 (fun l => { l with phase := .receiving (frame .poll none) 2, grace := some 0 }) (two .on .on)).dueEvent =
      some (.linkGraceExpiry 1) ∧
    (onLine 1 (fun l => { l with poll := some 0 }) (two .on .on)).dueEvent = some (.pollTimer 1) ∧
    ({ two .on .on with mon := { (two .on .on).mon with sag := .holdoff } }).dueEvent = some .sagEnd := by decide +kernel

theorem wit_TheLoadTakesTheNewerValidCopy :
    (copies 0 65535).store.startDone = false ∧
    ((copies 0 65535).store.copyA.image?.map Image.generation, (copies 0 65535).store.copyB.image?.map Image.generation) =
      (some 0, some 65535) ∧
    ((0 : Word) - 65535).toNat = 1 ∧ ((32768 : Word) - 0).toNat = 32768 ∧
    State.reset.store.copyA.image? = none := by decide +kernel

theorem wit_AValidCopyKeepsTheFloorLaw : (Copy.whole (shelfImage 3)).image? = some (shelfImage 3) := by decide +kernel

theorem wit_AnEnabledSlotIsInsertedListening :
    let s := withPresence 5 (.toInsertion 50) (two .vacant .on)
    s.store.startDone = true ∧ s.present.get 0 ≠ true ∧ (s.sessOf 0).state = .vacant ∧ (s.sessOf 1).state ≠ .vacant ∧
      (s.sessOf 5).state = .vacant ∧ (s.sessOf 5).presence = .toInsertion 50 := by decide +kernel

theorem wit_RemovalVacatesTheSlot :
    (let s := withPresence 0 (.toRemoval 2) (two .on .standby)
     s.store.startDone = true ∧ (s.sessOf 0).state ≠ .vacant ∧ (s.sessOf 0).presence = .toRemoval 2 ∧
       (s.leaseOf 0).isSome = true ∧ s.alloc.reclaim = none ∧ (s.rampOf 0).gate = true) ∧
    (let s := withPresence 1 (.toRemoval 2) beneficiary
     (s.sessOf 1).presence = .toRemoval 2 ∧ (s.entryOf 1).isSome = true ∧ s.isBeneficiary 1 = true) := by decide +kernel

theorem wit_TheHeadOfTheRampQueueRamps :
    (let s := two .ramping .rampWait
     s.store.startDone = true ∧ s.power.holder ≠ none) ∧
    (let s := two .rampWait .rampWait
     s.power.holder = none ∧ s.power.hold = false ∧ s.power.queue = [0, 1] ∧ (0 : Slot) ∉ [(1 : Slot)]) := by decide +kernel

theorem wit_RampDoneTurnsTheLeaseOn :
    let s := two .ramping .standby
    s.store.startDone = true ∧ ¬ ((s.rampOf 0).state = .ramping ∧ (s.rampOf 0).tag = 8) ∧
      ((s.rampOf 0).state = .ramping ∧ (s.rampOf 0).tag = 7 ∧ (s.leaseOf 0).isSome = true) := by decide +kernel

theorem wit_ATimedOutRampIsRetriedOrFailed :
    (let s := two .ramping .standby
     s.store.startDone = true ∧ (s.rampOf 0).state = .ramping ∧ (s.rampOf 0).retry < s.settings.rampRetries) ∧
    (let s := (two .ramping .standby).modRamp 0 (fun r => { r with retry := 1 })
     (s.rampOf 0).state = .ramping ∧ s.settings.rampRetries ≤ (s.rampOf 0).retry ∧ (s.leaseOf 0).isSome = true ∧
       s.alloc.reclaim = none) ∧
    (let s := (two .ramping .ramping).modRamp 0 (fun r => { r with state := .backoff })
     (s.rampOf 0).state = .backoff ∧ (0 : Slot) ∉ s.power.queue ∧ (s.rampOf 0).cls = .deferrable) ∧
    (let s := (two .ramping .ramping).modRamp 0 (fun r => { r with state := .backoff, cls := .essential })
     (s.rampOf 0).state = .backoff ∧ (0 : Slot) ∉ s.power.queue ∧ (s.rampOf 0).cls = .essential) := by decide +kernel

theorem wit_AScanKeepsEverySample :
    let s := onMon 0 (fun m => { m with watchArmed := true }) (two .ramping .on)
    s.store.startDone = true ∧ (s.monOf 1).watchArmed = false ∧ (s.monOf 0).watchArmed = true ∧ 10 * 215 < 9 * min 1023 240 ∧
      9 * min 1023 240 ≤ 10 * 216 := by decide +kernel

theorem wit_AScanStepsTheOverdrawCounts :
    let s := onMon 1 (fun m => { m with struck := true, clean := 255, run := 2 }) (two .on .on)
    s.store.startDone = true ∧ (s.sessOf 2).state ≠ .on ∧ (s.sessOf 0).state = .on ∧ (s.leaseOf 0).map Lease.draw = some 100 ∧
      100 + s.settings.overdrawMargin < min 8191 109 ∧ min 8191 108 ≤ 100 + s.settings.overdrawMargin ∧
      (s.monOf 0).run + 1 < s.settings.overdrawCount ∧ s.settings.overdrawCount ≤ (s.monOf 1).run + 1 ∧
      (s.monOf 0).struck = false ∧ (s.monOf 1).struck = true ∧ (s.monOf 1).clean = 255 := by decide +kernel

theorem wit_AScanStepsTheSagDetectorAndReports :
    let s := two .on .on
    s.store.startDone = true ∧ 199 < s.settings.sagLevel ∧ ¬ 200 < s.settings.sagLevel ∧ s.settings.sagLevel + 10 ≤ 210 ∧
      209 < s.settings.sagLevel + 10 ∧ (detector .normal 1 s).mon.low = 1 ∧ (detector .sagged 2 s).mon.sag = .sagged ∧
      (detector .holdoff 0 s).mon.sag = .holdoff := by decide +kernel

theorem wit_OutputGoodReportsAndACleanRunClears :
    let s := onMon 0 (fun m => { m with watchArmed := true, watchCount := 1, struck := true, clean := 255 }) (two .on .on)
    s.store.startDone = true ∧ ((s.monOf 0).watchArmed = true ∧ (s.monOf 0).watchCount = 1) ∧
      ¬ ((s.monOf 1).watchArmed = true ∧ (s.monOf 1).watchCount = 1) ∧
      ((s.sessOf 0).state = .on ∧ (s.monOf 0).struck = true ∧ (s.monOf 0).clean = 255) ∧
      ¬ ((s.sessOf 1).state = .on ∧ (s.monOf 1).struck = true ∧ (s.monOf 1).clean = 255) := by decide +kernel

theorem wit_AStrikeRecallsAndThenFaults :
    (two .on .standby).store.startDone = true ∧ ((two .on .standby).leaseOf 1 = none) ∧
    ((two .on .standby).sessOf 0).state = .on ∧ (two .on .standby).leaseOf 0 = some ⟨7, 2, 100, false, none⟩ ∧
    (two .on .standby).alloc.reclaim = none ∧
    (((two .ramping .rampWait).sessOf 0).state = .ramping ∧ ((two .ramping .rampWait).sessOf 1).state = .rampWait ∧
      (two .ramping .rampWait).leaseOf 1 = some ⟨8, 2, 100, false, none⟩) ∧
    ({ two .on .standby with alloc := { (two .on .standby).alloc with
        leases := (PerSlot.all none).set 0 (some ⟨7, 1, 50, false, none⟩) } }).leaseOf 0 = some ⟨7, 1, 50, false, none⟩ := by
  decide +kernel

theorem wit_ASagCutsEveryDeferrableLease :
    let s := two .on .on
    s.store.startDone = true ∧ s.alloc.state = .running ∧ (s.policyOf 1).cls = .essential ∧ s.leaseOf 2 = none ∧
      (s.policyOf 0).cls = .deferrable ∧ (s.leaseOf 0).isSome = true ∧ (s.policyOf 0).enabled = true ∧
      (s.sessOf 0).admitFlag = true ∧ s.alloc.reclaim = none ∧
      (let s := beneficiary
       s.alloc.reclaim = some ⟨1, 8, 30, [0]⟩ ∧ s.alloc.earmark ≤ 30 ∧ s.lowering 0 = true ∧
         after (.sagBegin 0) s (fun t => t.alloc.reclaim = some ⟨1, 8, 30, []⟩ ∧ t.alloc.earmark = 30) = true) ∧
      (1 ≤ 2 ∧ 2 ≤ s.tiersOf 0 ∧ s.drawOf 0 1 ≤ (s.policyOf 0).cap ∧
        max (s.floorOf 0) (s.drawOf 0 1) + s.floorSum ≤ s.available + s.floorOf 0) := by decide +kernel

theorem wit_TheEndOfASagResumesGrants :
    (two .on .on).store.startDone = true ∧ (two .on .on).mon.sag ≠ .holdoff ∧
      (detector .holdoff 0 (two .on .on)).mon.sag = .holdoff := by decide +kernel

theorem wit_ADeadlineEndsTheRecall :
    ((two .on .on).store.startDone = true ∧ (two .on .on).leaseOf 5 = none) ∧
    (let s := onMon 0 (fun m => { m with power := 59 }) (reclaiming (moving lowerTo1 (two .on .on)))
     50 + s.settings.overdrawMargin < (s.monOf 0).power ∧ s.alloc.reclaim = some ⟨1, 8, 30, [0]⟩ ∧
       s.isBeneficiary 0 = false ∧ s.lowering 0 = true) ∧
    (let s := onMon 0 (fun m => { m with power := 8 }) (reclaiming (moving (.lower 0 0 .host 0) (two .on .on)))
     (s.monOf 0).power ≤ 0 + s.settings.overdrawMargin ∧ s.alloc.reclaim = some ⟨1, 8, 30, [0]⟩ ∧ s.entryOf 0 = none) ∧
    (let s := onMon 0 (fun m => { m with power := 58 }) (reclaiming (moving lowerTo1 (two .on .on)))
     s.leaseOf 0 = some ⟨7, 2, 100, false, some (.lower 1 50 .host 30)⟩ ∧
       (s.monOf 0).power ≤ 50 + s.settings.overdrawMargin ∧ s.alloc.reclaim = some ⟨1, 8, 30, [0]⟩) ∧
    (let s := onMon 0 (fun m => { m with power := 59 }) (moving lowerTo1 (two .on .on))
     50 + s.settings.overdrawMargin < (s.monOf 0).power ∧ s.isVictim 0 = false) ∧
    (let s := onMon 0 (fun m => { m with power := 8 }) (moving (.lower 0 0 .shed 0) (two .on .on))
     (s.monOf 0).power ≤ 0 + s.settings.overdrawMargin ∧ (s.policyOf 0).enabled = true ∧ (s.sessOf 0).admitFlag = true) := by
  decide +kernel

theorem wit_TheNextFrameIsChosenInOrder :
    let f := frame (.grant 2 false) (some .claim)
    let due := fun (p : Option PendingFrame) (out : Option DownMsg) (byPoll : Bool) => onLine 0 (fun l => { l with
      pendingFrame := p, outClaim := out, seq := true, phase := .due 0 byPoll }) (two .standby .listening)
    (two .on .on).store.startDone = true ∧
    ((due (some ⟨f, .stands, true⟩) none false).lineOf 0).pendingFrame = some ⟨f, .stands, true⟩ ∧ f.seq = true ∧
    ((due (some ⟨f, .stands, false⟩) none false).lineOf 0).pendingFrame = some ⟨f, .stands, false⟩ ∧
    (((due (some ⟨f, .replaced, true⟩) (some (.deny .cancelled)) false).lineOf 0).chan .claim = some (.deny .cancelled)) ∧
    (((due (some ⟨f, .replaced, true⟩) none false).lineOf 0).chan .claim = none) ∧
    ((due (some ⟨f, .removed, true⟩) none false).lineOf 0).pendingFrame = some ⟨f, .removed, true⟩ ∧
    (let s := waitingProbe (some (.welcome 7)) false .standby
     (s.lineOf 0).phase = .due 0 false ∧ (s.lineOf 0).lost = false ∧ (s.lineOf 0).outSession = some (.welcome 7)) ∧
    (let s := waitingProbe none true .listening
     (s.sessOf 0).state = .listening ∧ (s.lineOf 0).outSession = none ∧ (s.lineOf 0).seq = true) ∧
    (two .rejected .on |>.sessOf 0).state.polls = false ∧
    (((due none (some (.hold 0)) false).lineOf 0).outClaim = some (.hold 0) ∧
      ((due none (some (.hold 0)) false).lineOf 0).outSession = none) ∧
    (((due none none true).lineOf 0).phase = .due 0 true ∧ ((due none none true).sessOf 0).state.isOpen = true ∧
      ((due none none true).sessOf 1).state = .listening) := by decide +kernel

/-- Each failure kind of R101 on bytes written out by hand, their CRC-8 worked out apart from the model. -/
theorem wit_ResponseFails :
    let f := frame .poll none
    f.ResponseFails [] true .badFormat ∧ f.ResponseFails [0x40, 7, 0x96] false .badFormat ∧
    f.ResponseFails [0x40, 7, 0x80, 0] false .badCrc ∧ f.ResponseFails [0x07, 7, 0x80, 0xF4] false .badKind ∧
    f.ResponseFails [0x40, 7, 0x81, 1, 0x29] false .badFormat ∧ f.ResponseFails [0x40, 9, 0x80, 0xB2] false .badTag ∧
    f.ResponseFails [0x40, 7, 0x00, 0xED] false .badEcho ∧
    (∀ kind, ¬ f.ResponseFails [0x40, 7, 0x80, 0x64] false kind) ∧ (∀ kind, ¬ f.ResponseFails [0x40, 7] false kind) := by
  refine ⟨?_, ?_, ?_, ?_, ?_, ?_, ?_, fun kind => ?_, fun kind => ?_⟩
  all_goals unfold Frame.ResponseFails
  all_goals (try cases kind) <;> decide +kernel

theorem wit_AFailedAttemptIsRetriedOrGivenUp :
    (two .on .on).store.startDone = true ∧
    (let f := frame .poll none
     (let g := frame (.recall 1 20) (some .recall)
      let s := onLine 0 (fun l => { l with pendingFrame := some ⟨g, .removed, true⟩ }) (inFlight g .on)
      (s.lineOf 0).pendingFrame = some ⟨g, .removed, true⟩ ∧ (s.lineOf 0).lost = false ∧ (s.lineOf 0).outSession = none ∧
        (s.lineOf 0).outRecall = none ∧ (s.lineOf 0).outClaim = none ∧ (s.lineOf 0).retries < s.settings.lineRetries) ∧
     (let s := onLine 0 (fun l => { l with pendingFrame := none, outSession := some (.sever .sag) }) (inFlight f .faulted)
      (s.lineOf 0).pendingFrame = none ∧ (s.lineOf 0).outSession ≠ none ∧ ¬ (s.sessOf 0).state.polls = true) ∧
     (let s := inFlight f .standby
      (s.lineOf 0).phase = .awaiting f 0 ∧ ((s.lineOf 0).pendingFrame).isSome = true ∧ (s.lineOf 0).lost = false ∧
        (s.lineOf 0).retries < s.settings.lineRetries) ∧
     (let s := onLine 0 (fun l => { l with retries := 2 }) (inFlight f .standby)
      s.settings.lineRetries ≤ (s.lineOf 0).retries ∧ (s.sessOf 0).state.isOpen = true) ∧
     ((onLine 0 (fun l => { l with lost := true }) (inFlight f .standby)).lineOf 0).lost = true ∧
     (let s := onLine 0 (fun l => { l with retries := 2 }) (inFlight f .listening)
      s.settings.lineRetries ≤ (s.lineOf 0).retries ∧ (s.lineOf 0).pendingFrame = some ⟨f, .stands, true⟩) ∧
     ((inFlight f .listening).sessOf 0).state = .listening ∧ ((inFlight f .faulted).sessOf 0).state = .faulted ∧
     (let s := onLine 0 (fun l => { l with pendingFrame := none }) (inFlight f .standby)
      (s.lineOf 0).pendingFrame = none ∧ (s.lineOf 0).outSession = none ∧ (s.sessOf 0).state.polls = true)) := by decide +kernel

theorem wit_AMissedGapIsAFailedAttempt :
    (let s := onLine 0 (fun l => { l with phase := .due 3 false, pendingFrame := some ⟨frame .poll none, .stands, true⟩ }) (two .on .on)
     s.store.startDone = true ∧ (s.lineOf 0).phase = .due 3 false ∧
       (s.lineOf 0).pendingFrame = some ⟨frame .poll none, .stands, true⟩) ∧
    (((waitingProbe (some (.welcome 7)) false .standby).lineOf 0).lost = false ∧
      ((waitingProbe none true .listening).lineOf 0).phase = .due 0 true) ∧
    (let s := onLine 0 (fun l => { l with phase := .due 3 false, outSession := some (.welcome 7) }) (two .standby .on)
     (s.lineOf 0).pendingFrame = none ∧ (s.lineOf 0).outSession = some (.welcome 7)) ∧
    (let s := onLine 0 (fun l => { l with
       phase := .due 3 false, outClaim := some (.hold 0), lost := true
       pendingFrame := some ⟨frame (.hold 1) (some .claim), .replaced, true⟩ }) (two .standby .on)
     (s.lineOf 0).pendingFrame = some ⟨frame (.hold 1) (some .claim), .replaced, true⟩ ∧
       (s.lineOf 0).chan .claim = some (.hold 0)) ∧
    (let s := onLine 0 (fun l => { l with phase := .due 3 true }) (two .standby .on)
     (s.lineOf 0).phase = .due 3 true ∧ (s.sessOf 0).state.isOpen = true ∧ (s.lineOf 0).outSession = none) := by decide +kernel

theorem wit_AValidResponseDeliversAndHandsOn :
    let f := frame (.grant 3 false) (some .claim)
    let s := onLine 0 (fun l => { l with outClaim := some (.grant 3 false), pendingFrame := some ⟨f, .stands, true⟩, phase := .awaiting f 0 })
      (moving (.raise 3 150 .claim) (two .on .standby))
    s.store.startDone = true ∧
      (s.alloc.passDue = false ∧ s.alloc.state = .running ∧ (s.power.holder = none ∧ s.power.queue = [])) ∧
      (s.lineOf 0).phase = .awaiting f 0 ∧ (7 : Byte) = f.tag ∧ (s.lineOf 0).lost = false ∧
      s.leaseOf 0 = some ⟨7, 2, 100, false, some (.raise 3 150 .claim)⟩ ∧
      ((onLine 0 (fun l => { l with lost := true }) s).lineOf 0).lost = true ∧
      (UpMsg.hello 1 2 0 0 [1, 2, 3, 4, 5, 6]).kindCode = 0x41 := by decide +kernel

theorem wit_ThePollTimerMakesAFrameDue :
    (two .on .on).store.startDone = true ∧ ((two .on .on).lineOf 0).poll = none ∧
    (let s := onLine 0 (fun l => { l with poll := some 0 }) (two .standby .on)
     (s.lineOf 0).poll = some 0 ∧ (s.lineOf 0).phase = .idle) ∧
    (let s := onLine 0 (fun l => { l with poll := some 0, phase := .due 2 false }) (two .standby .on)
     (s.lineOf 0).poll = some 0 ∧ (s.lineOf 0).phase = .due 2 false) ∧
    ((inFlight (frame .poll none) .on).lineOf 0).phase = .awaiting (frame .poll none) 0 := by decide +kernel

theorem wit_LinkGraceEndsTheSession :
    ((two .on .on).lineOf 0).lost = false ∧
    (let s := onLine 0 (fun l => { l with lost := true }) (two .on .on)
     s.store.startDone = true ∧ (s.lineOf 0).lost = true ∧ (s.sessOf 0).state = .on ∧ (s.leaseOf 0).isSome = true ∧
       s.alloc.reclaim = none) ∧
    (let s := onLine 0 (fun l => { l with lost := true }) (two .rampWait .on)
     (s.lineOf 0).lost = true ∧ (s.sessOf 0).state = .rampWait ∧ (s.leaseOf 0).isSome = true) ∧
    (let s := onLine 0 (fun l => { l with lost := true }) (two .standby .on)
     (s.lineOf 0).lost = true ∧ (s.sessOf 0).state = .standby ∧ s.leaseOf 0 = none) := by decide +kernel

theorem wit_AGoodHelloOpensASession :
    (let s := two .listening .on
     s.store.startDone = true ∧ (s.sessOf 0).state = .listening ∧ (s.policyOf 0).enabled = true ∧ s.leaseOf 0 = none ∧
       s.entryOf 0 = none ∧ module3.listOk = true ∧ module3.drawOf 1 ≤ (s.policyOf 0).cap ∧ (s.policyOf 0).startMode = .auto ∧
       max (s.floorOf 0) (module3.drawOf 1) + s.floorSum ≤ s.available + s.floorOf 0) ∧
    (let s := withSettings (fun x => { x with supplyLimit := 169 }) (two .listening .standby)
     s.available + s.floorOf 0 < max (s.floorOf 0) (module3.drawOf 1) + s.floorSum) ∧
    ((two .on .listening).sessOf 1).state = .listening ∧ ((two .on .listening).policyOf 1).startMode = .host := by decide +kernel

theorem wit_ABadHelloIsRefused :
    let s := two .listening .on
    s.store.startDone = true ∧ (s.sessOf 0).state = .listening ∧ ¬ (1 ≤ ([] : List Word).length) ∧
      ¬ ([5, 5] : List Word).Pairwise (fun a b => a.toNat < b.toNat) ∧ ([5] : List Word).length < (2 : Byte).toNat ∧
      ¬ (1 ≤ (4096 : Word).toNat ∧ (4096 : Word).toNat ≤ 4095) ∧
      (([121, 130] : List Word).head? = some 121 ∧ (s.policyOf 0).cap < (121 : Word).toNat) := by decide +kernel

theorem wit_ARestartHelloEndsTheOldSession :
    let s := two .on .standby
    s.store.startDone = true ∧ (s.sessOf 0).state.isOpen = true ∧ (s.leaseOf 0).isSome = true ∧ s.alloc.reclaim = none ∧
      (s.rampOf 0).gate = true ∧ (s.rampOf 1).gate = false := by decide +kernel

theorem wit_AClaimThatFailsACheckIsDenied :
    (two .on .standby).store.startDone = true ∧ ((two .on .standby).sessOf 0).state = .on ∧ (7 : Byte) = ((two .on .standby).sessOf 0).tag ∧
    (two .on .standby).admission 0 4 1 = some .badList ∧ (two .on .standby).admission 0 0 0 = some .badList ∧
    ((two .on .standby).modSess 0 (fun x => { x with admitFlag := false })).admission 0 3 1 = some .notAdmitted ∧
    (moving (.raise 3 150 .claim) (two .on .standby)).admission 0 3 1 = some .inTransition ∧
    (two .on .standby).admission 0 2 1 = some .notHigher ∧ (two .on .standby).admission 0 3 3 = some .overCap ∧
    (withSettings (fun x => { x with supplyLimit := 140 }) (two .on .standby)).admission 0 3 1 = some .neverFits ∧
    (beneficiary.entryOf 1).isSome = true ∧ beneficiary.isBeneficiary 1 = true := by decide +kernel

theorem wit_AClaimThatPassesWaitsInOrder :
    (two .on .standby).store.startDone = true ∧ ((two .on .standby).sessOf 0).tag = 7 ∧
    (two .on .standby).admission 0 3 1 = none ∧ (two .on .standby).entryOf 0 = none ∧
    beneficiary.admission 1 3 3 = none ∧ beneficiary.alloc.queue = [] ++ entryOf 1 8 3 3 :: [] ∧ beneficiary.isBeneficiary 1 = true ∧
    (reclaiming (waiting [entryOf 1 8 2 2] (two .standby .standby))).admission 1 3 3 = none ∧
    (entryOf 1 8 2 2).wanted < 3 := by decide +kernel

theorem wit_AnAnswerEndsTheRecall :
    (let s := moving lowerTo1 (two .on .standby)
     s.store.startDone = true ∧ (s.sessOf 0).state = .on ∧ (7 : Byte) = (s.sessOf 0).tag ∧
       s.leaseOf 0 = some ⟨7, 2, 100, false, some (.lower 1 50 .host 30)⟩ ∧ 1 < (2 : Byte).toNat ∧ (1 : Byte).toNat ≤ 1 ∧
       (0 : Byte).toNat = 0) ∧
    (let s := moving (.lower 0 0 .shed 30) (two .on .standby)
     (s.policyOf 0).enabled = true ∧ (s.sessOf 0).admitFlag = true ∧
       s.leaseOf 0 = some ⟨7, 2, 100, false, some (.lower 0 0 .shed 30)⟩) ∧
    (let s := reclaiming (moving lowerTo1 (two .on .on))
     s.alloc.reclaim = some ⟨1, 8, 30, [0]⟩ ∧ s.alloc.earmark = 0 ∧ s.commitment 0 - max (s.floorOf 0) 50 = 50) := by
  decide +kernel

theorem wit_AYieldHandsPowerBack :
    (let s := two .on .standby
     s.store.startDone = true ∧ (s.sessOf 0).state = .on ∧ (7 : Byte) = (s.sessOf 0).tag ∧
       s.leaseOf 0 = some ⟨7, 2, 100, false, none⟩ ∧ s.commitment 0 ≤ s.alloc.committed) ∧
    (moving (.raise 3 150 .claim) (two .on .standby)).leaseOf 0 = some ⟨7, 2, 100, false, some (.raise 3 150 .claim)⟩ := by
  decide +kernel

theorem wit_AModuleFaultDropsTheLease :
    let s := two .on .standby
    s.store.startDone = true ∧ (s.sessOf 0).state = .on ∧ (7 : Byte) = (s.sessOf 0).tag ∧
      s.leaseOf 0 = some ⟨7, 2, 100, false, none⟩ ∧ (s.policyOf 0).enabled = true := by decide +kernel

theorem wit_MessagesOutOfPlaceAreIgnoredOrCounted :
    (two .rampWait .standby).store.startDone = true ∧ (7 : Byte) = ((two .rampWait .standby).sessOf 0).tag ∧
      ((two .rampWait .standby).sessOf 0).state = .rampWait ∧ (8 : Byte) ≠ 7 ∧ ((two .rampWait .standby).sessOf 1).state = .standby ∧
      ((two .rejected .faulted).sessOf 0).state = .rejected ∧ ((two .rejected .faulted).sessOf 1).state = .faulted ∧
      ((two .barred .on).sessOf 0).state = .barred := by decide +kernel

theorem wit_ACommandIsTakenAtTheEndOfItsTransaction :
    let s := two .on .on
    s.store.startDone = true ∧ s.host.armed = false ∧ s.store.state = .idle ∧ 8 ≤ (8 : Byte).toNat ∧
      (0x0803 : Word).toNat / 256 = 8 ∧ (0x0900 : Word).toNat / 256 = 9 ∧ (0x0103 : Word).toNat / 256 = 1 ∧
      ({ s with host := { s.host with armed := true } }).host.armed = true ∧
      ({ s with host := { s.host with burst := some ⟨true, 0x0C⟩ } }).host.burst ≠ none ∧
      some (⟨true, 0x0C⟩ : Burst) ≠ some ⟨true, 0x02⟩ ∧ some (⟨true, 0x0C⟩ : Burst) ≠ some ⟨false, 0x0C⟩ ∧
      ({ s with store := { s.store with state := .erasing } }).store.state ≠ .idle := by decide +kernel

theorem wit_ApplyPolicyIsCheckedFirst :
    let s := two .standby .on
    s.store.startDone = true ∧ s.store.state = .idle ∧ (0 : Byte).toNat = (0 : Slot).val ∧
      s.applyCheck 0 ⟨true, .deferrable, 8, 20, 120, .auto⟩ = .badArg ∧
      s.applyCheck 0 ⟨true, .deferrable, 2, 281, 300, .auto⟩ = .floorConflict ∧
      s.applyCheck 0 ⟨true, .deferrable, 2, 201, 300, .auto⟩ = .budgetConflict ∧
      s.applyCheck 0 ⟨true, .deferrable, 2, 200, 300, .auto⟩ = .ok ∧
      s.applyCheck 0 (s.policyOf 0) = .ok := by decide +kernel

theorem wit_ApplyPolicyActsOnTheSlot :
    (let s := staged ⟨true, .essential, 2, 200, 300, .auto⟩ (waiting [entryOf 0 7 2 1] (two .standby .on))
     s.store.startDone = true ∧ s.store.state = .idle ∧ s.applyCheck 0 s.cmd.staging = .ok ∧ s.cmd.staging ≠ s.policyOf 0 ∧
       s.leaseOf 0 = none ∧ (s.entryOf 0).isSome = true) ∧
    (let s := staged ⟨true, .essential, 5, 20, 120, .auto⟩ (waiting [entryOf 1 8 3 1, entryOf 0 7 2 1] (two .standby .standby))
     s.applyCheck 0 s.cmd.staging = .ok ∧ (s.alloc.queue.map Entry.slot).Nodup ∧ s.entryOf 0 = some (entryOf 0 7 2 1) ∧
       (s.policyOf 0).cls = .deferrable ∧ s.drawOf 0 1 ≤ 120) ∧
    (let s := staged ⟨true, .deferrable, 0, 0, 9, .host⟩ ((two .on .on).modSess 2 (fun x => { x with state := .barred }))
     s.applyCheck 2 s.cmd.staging = .ok ∧ (s.policyOf 2).enabled = false ∧ (s.sessOf 2).state = .barred) ∧
    (let s := staged ⟨false, .deferrable, 2, 20, 120, .auto⟩ (two .on .on)
     s.applyCheck 0 s.cmd.staging = .ok ∧ (s.policyOf 0).enabled = true ∧ (s.sessOf 0).state = .on ∧
       s.leaseOf 0 = some ⟨7, 2, 100, false, none⟩) ∧
    ((two .standby .on).leaseOf 0 = none ∧ ((two .ramping .on).sessOf 0).state = .ramping ∧
      ((two .listening .on).sessOf 0).state = .listening ∧ ((two .faulted .on).sessOf 0).state = .faulted) ∧
    (let s := staged ⟨true, .deferrable, 2, 20, 99, .auto⟩ (two .on .on)
     s.applyCheck 0 s.cmd.staging = .ok ∧ s.cmd.staging.cap < 100 ∧ s.drawOf 0 1 ≤ 99 ∧ 99 < s.drawOf 0 2) ∧
    (let s := staged ⟨true, .deferrable, 2, 20, 149, .auto⟩ (moving (.raise 3 150 .claim) (two .on .standby))
     s.applyCheck 0 s.cmd.staging = .ok ∧ 149 < Lease.term (s.leaseOf 0) ∧ s.drawOf 0 2 ≤ 149 ∧ 149 < s.drawOf 0 3) ∧
    (let s := staged ⟨true, .deferrable, 2, 20, 99, .auto⟩ (moving (.lower 0 0 .host 30) (two .on .on))
     s.applyCheck 0 s.cmd.staging = .ok ∧ 99 < Lease.term (s.leaseOf 0)) ∧
    (let s := staged ⟨true, .deferrable, 2, 20, 99, .auto⟩ (two .ramping .on)
     s.applyCheck 0 s.cmd.staging = .ok ∧ (s.sessOf 0).state = .ramping ∧ s.alloc.queue = [] ∧ s.alloc.reclaim = none) ∧
    (let s := staged ⟨true, .essential, 2, 20, 120, .auto⟩ (two .rampWait .rampWait)
     s.applyCheck 0 s.cmd.staging = .ok ∧ (s.policyOf 0).cls = .deferrable ∧ (s.rampOf 0).state = .queued ∧
       Lease.term (s.leaseOf 0) ≤ 120) ∧
    (let s := staged ⟨true, .deferrable, 3, 20, 200, .host⟩ beneficiary
     s.applyCheck 1 s.cmd.staging = .ok ∧ (s.policyOf 1).cls = .essential ∧ s.isBeneficiary 1 = true) := by decide +kernel

theorem wit_SetBudgetSetsTheBudgetAndTestsForShedding :
    let s := two .on .on
    s.store.startDone = true ∧ s.store.state = .idle ∧ s.floorSum = 40 ∧ s.alloc.committed = 200 ∧
      ¬ (100 : Word).toNat ≤ (99 : Word).toNat ∧ (39 : Word).toNat - (0 : Word).toNat < s.floorSum ∧
      s.alloc.committed ≤ (200 : Word).toNat - (0 : Word).toNat ∧ (199 : Word).toNat - (0 : Word).toNat < s.alloc.committed ∧
      s.alloc.queue = [] ∧ s.alloc.reclaim = none := by decide +kernel

theorem wit_AdmitBringsTheModuleUp :
    ((two .standby .on).store.startDone = true ∧ (two .standby .on).store.state = .idle ∧
      ¬ (((two .standby .on).sessOf 0).state = .standby ∧ ((two .standby .on).sessOf 0).admitFlag = false)) ∧
    (let s := (two .standby .on).modSess 0 (fun x => { x with admitFlag := false })
     (s.sessOf 0).state = .standby ∧ (s.sessOf 0).admitFlag = false ∧ (s.sessOf 0).desc = some module3 ∧ module3.listOk = true ∧
       s.leaseOf 0 = none ∧ s.entryOf 0 = none ∧ module3.drawOf 1 ≤ (s.policyOf 0).cap ∧
       max (s.floorOf 0) (module3.drawOf 1) + s.floorSum ≤ s.available + s.floorOf 0) ∧
    (let s := withSettings (fun x => { x with supplyLimit := 169 }) (two .standby .standby)
     s.available + s.floorOf 0 < max (s.floorOf 0) (module3.drawOf 1) + s.floorSum) := by decide +kernel

theorem wit_EvictTakesFlagEntryAndLease :
    (let s := two .standby .on
     s.store.startDone = true ∧ s.store.state = .idle ∧ s.leaseOf 0 = none ∧ s.entryOf 0 = none ∧ (s.leaseOf 1).isSome = true ∧
       1 < (2 : Word).toNat ∧ (1 : Word).toNat ≤ 1) ∧
    (let s := waiting [entryOf 0 7 2 1] (two .standby .on)
     s.entryOf 0 = some (entryOf 0 7 2 1) ∧ s.leaseOf 0 = none ∧ (s.sessOf 0).state = .standby ∧ s.isBeneficiary 0 = false) ∧
    (two .on .on).leaseOf 0 = some ⟨7, 2, 100, false, none⟩ ∧ (two .on .on).entryOf 0 = none ∧
    (let s := waiting [entryOf 0 7 3 3] (two .on .on)
     s.leaseOf 0 = some ⟨7, 2, 100, false, none⟩ ∧ (s.entryOf 0).isSome = true) ∧
    ((two .rampWait .on).sessOf 0).state = .rampWait ∧
    (beneficiary.entryOf 1).isSome = true ∧ beneficiary.isBeneficiary 1 = true := by decide +kernel

theorem wit_SetTierClaimsOrRecalls :
    let s := two .on .standby
    s.store.startDone = true ∧ s.store.state = .idle ∧ (s.sessOf 1).state ≠ .on ∧ (s.sessOf 0).state = .on ∧
      s.tiersOf 0 < (4 : Word).toNat ∧ s.leaseOf 0 = some ⟨7, 2, 100, false, none⟩ ∧ s.admission 0 3 3 = some .overCap ∧
      s.entryOf 0 = none ∧ (two .on .on).admission 1 3 3 = none ∧ (two .on .on).entryOf 1 = none ∧
      (waiting [entryOf 1 8 3 3] (two .on .on)).entryOf 1 = some (entryOf 1 8 3 3) := by decide +kernel

theorem wit_ClearFaultAndRescanReopenTheSlot :
    let s := two .faulted .rejected
    s.store.startDone = true ∧ s.store.state = .idle ∧ (s.sessOf 0).state = .faulted ∧ (s.sessOf 1).state ≠ .faulted ∧
      (s.sessOf 1).state = .rejected ∧ (s.sessOf 0).state ≠ .rejected ∧ (1 : Byte).toNat = (1 : Slot).val := by decide +kernel

theorem wit_AStoreWritesTheOtherCopy :
    let s := fun (x : StoreState) => { two .on .on with
      store := { (two .on .on).store with state := x, snapshot := some (shelfImage 1) } }
    (s .idle).store.startDone = true ∧ (s .idle).store.state = .idle ∧ (s .erasing).store.state = .erasing ∧
      (s .programming).store.state = .programming ∧ (s .verifying).store.snapshot = some (shelfImage 1) ∧
      (s .verifying).store.discard = false ∧
      ({ (s .verifying).store with discard := true }).discard = true := by decide +kernel

theorem wit_AStoredPolicySurvivesAReset :
    let s := two .on .on
    s.store.startDone = true ∧ s.store.state = .idle ∧ (Image.mk s.store.activeGen s.cmd.policy s.cmd.settings).ok = true ∧
      (s.store.copyOf s.store.active).image? = none ∧
      after .storePolicy s (fun s1 => after .eraseComplete s1 (fun s2 => after .programComplete s2 (fun s3 =>
        after (.verifyComplete .success) s3 (fun s4 => after (.deviceReset true) s4 (fun s5 =>
          after .policyLoad s5 (fun t => t.store.activeGen = 1)))))) = true := by decide +kernel

/-- A word fits a state with no transaction in progress, and one whose transaction has reached its address. -/
theorem fits_of_none {s : State} {write : Bool} {addr : BitVec 7} (h : s.host.burst = none) : s.WordFits write addr := .inl h

theorem wit_ControlWritesItsFields : (two .on .on).store.startDone = true ∧ (two .on .on).WordFits true 0x03 ∧
    ({ two .on .on with host := { HostPort.reset with burst := some ⟨true, 0x03⟩ } }).WordFits true 0x03 :=
  ⟨by decide +kernel, fits_of_none rfl, .inr rfl⟩

theorem wit_ASettingIsTakenWholeOrIgnored : (two .on .on).host.burst = none ∧
    (two .on .on).store.startDone = true ∧ (settingApply .settleTime 255 Settings.factory).isSome = true ∧
      settingApply .settleTime 256 Settings.factory = none ∧ settingApply .monCtrl 0x0004 Settings.factory = none ∧
      (settingApply .monCtrl 0x0F03 Settings.factory).isSome = true ∧ 15 < (16 : Word).toNat ∧ (15 : Word).toNat ≤ 15 := by
  decide +kernel

theorem wit_AWriteWordActsByItsRegister :
    let s := { two .on .on with host := { HostPort.reset with tableSel := 0x0100, wordPtr := 2 } }
    s.store.startDone = true ∧ s.host.tableSel.toNat / 256 = 1 ∧ s.host.wordPtr ≤ 2 ∧ (0x1B : BitVec 7).toNat = 27 ∧
      (two .on .on).host.tableSel.toNat / 256 ≠ 1 ∧ s.host.burst = none ∧ (two .on .on).host.burst = none ∧
      (0x7F : BitVec 7) + 1 = 0x00 := by decide +kernel

theorem wit_AReadWordCapturesAndAdvances :
    let s := { two .on .on with
      host := { HostPort.reset with tableSel := 0x0607 }, notices := ⟨[⟨9, .start, none, .none, false, 12⟩], 10, 0⟩ }
    s.store.startDone = true ∧ s.host.burst = none ∧ s.host.wordPtr = 0 ∧ s.host.tableSel.toNat = 6 * 256 + (7 : Slot).val ∧ s.host.noticePtr = 0 ∧
      s.notices.records = [⟨9, .start, none, .none, false, 12⟩] ∧ (two .on .on).notices.records = [] ∧
      (0x0608 : Word).toNat % 256 = 8 ∧
      (let r := { HostPort.reset with wordPtr := 1, noticePtr := 2, noticeBuf := .record ⟨9, .start, none, .none, false, 12⟩ }
       0 < r.wordPtr ∧ r.tableBuf = [] ∧ [(5 : Word), 6][1]? = some 6 ∧ r.noticePtr = 2 ∧ HostPort.reset.noticeBuf = .empty ∧ r.noticeBuf = .record ⟨9, .start, none, .none, false, 12⟩) := by decide +kernel

theorem wit_NothingActsBeforeTheLoad : State.reset.store.startDone = false ∧ State.reset.host.burst = none ∧
    some (⟨true, 0x0C⟩ : Burst) ≠ none ∧ some (⟨true, 0x0C⟩ : Burst) ≠ some ⟨false, 0x19⟩ := by decide

theorem wit_FinishEndsTheHappening :
    (let s := two .on .on
     s.alloc.passDue = false ∧ s.alloc.state = .running ∧ s.power.queue = [] ∧ s.leaseOf 5 = none ∧ s.entryOf 5 = none ∧
       (5 : Slot) ∉ s.power.queue) ∧
    (let s := (waiting [entryOf 0 7 2 1] (two .standby .on)).wantPass true
     (s.alloc.queue.map Entry.slot).Nodup ∧ s.alloc.state = .running ∧ s.alloc.passDue = true ∧
       s.alloc.queue = [entryOf 0 7 2 1] ∧ (s.lineOf 0).lost = false ∧ s.leaseOf 0 = none ∧ s.grantTier (entryOf 0 7 2 1) = 2) ∧
    (let s := (waiting [entryOf 0 7 3 3] (two .standby .on)).wantPass true
     s.grantTier (entryOf 0 7 3 3) = 0 ∧ (entryOf 0 7 3 3).cls = .deferrable ∧ s.settings.backfill = false ∧
       s.alloc.reclaim = none) ∧
    (let s := (onLine 1 (fun l => { l with lost := true })
       (waiting [entryOf 1 8 3 3, entryOf 0 7 2 1] (two .standby .on))).wantPass true
     s.alloc.queue = [entryOf 1 8 3 3] ++ entryOf 0 7 2 1 :: [] ∧ (s.lineOf 1).lost = true ∧ s.grantTier (entryOf 0 7 2 1) = 2) ∧
    (let s := withSettings (fun x => { x with supplyLimit := 320 }) ((waiting [entryOf 1 8 3 3] (two .on .on)).wantPass true)
     s.grantTier (entryOf 1 8 3 3) = 0 ∧ (entryOf 1 8 3 3).cls = .essential ∧ s.settings.preempt = true ∧
       s.shortfall (entryOf 1 8 3 3) = 30 ∧ s.reclaimPlan (s.shedOrder.filter s.candidate) 30 = some [(0, 1)]) ∧
    (let s := beneficiary
     { s with alloc := { s.alloc with reclaim := some ⟨1, 8, 30, []⟩ } }.alloc.reclaim = some ⟨1, 8, 30, []⟩ ∧
       s.alloc.reclaim = some ⟨1, 8, 30, [0]⟩) ∧
    (let s := { two .on .on with alloc := { (two .on .on).alloc with state := .shedding } }
     s.alloc.state = .shedding ∧ s.alloc.committed ≤ s.available) ∧
    (let s := two .rampWait .on
     s.alloc.passDue = false ∧ s.power.holder = none ∧ s.power.hold = false ∧ s.power.queue = [0]) ∧
    (let s := withSettings (fun x => { x with backfill := true, supplyLimit := 320 })
       ((waiting [entryOf 1 8 3 3] (two .on .on)).wantPass true)
     s.grantTier (entryOf 1 8 3 3) = 0 ∧ s.settings.backfill = true ∧
       (entryOf 1 8 3 3).passCount < s.settings.passLimit ∧ s.shortfall (entryOf 1 8 3 3) = 30 ∧ s.alloc.earmark = 0) ∧
    (let s := (waiting [entryOf 1 8 2 1] (two .rampWait .standby)).wantPass true
     s.grantTier (entryOf 1 8 2 1) = 2 ∧ s.leaseOf 1 = none ∧ (s.policyOf 1).cls = .essential ∧ s.power.holder = none ∧
       s.power.hold = false ∧ s.power.queue = [0] ∧ (s.rampOf 0).cls = .deferrable) := by decide +kernel

theorem wit_AGrantIsTheHighestTierThatFits :
    (two .standby .on).grantTier (entryOf 0 7 3 1) = 2 ∧ (two .standby .on).grantTier (entryOf 0 7 3 3) = 0 ∧
      (two .on .on).leaseOf 0 = some ⟨7, 2, 100, false, none⟩ ∧ (two .standby .on).leaseOf 0 = none ∧
      (waiting [entryOf 1 8 3 3, entryOf 0 7 2 1] (two .standby .on)).alloc.queue = [entryOf 1 8 3 3] ++ entryOf 0 7 2 1 :: [] ∧
      0 < (two .standby .on).settings.passLimit := by decide +kernel

theorem wit_AReclaimPlanCoversTheShortfall :
    let s := two .on .on
    (0 : Int) < 30 ∧ s.reclaimPlan (s.shedOrder.filter s.candidate) 30 = some [(0, 1)] ∧
      s.reclaimPlan (s.shedOrder.filter s.candidate) 50 = some [(0, 1)] ∧
      s.reclaimPlan (s.shedOrder.filter s.candidate) 51 = none := by decide +kernel

/-- `State.TierLaw` at slot `k`, as a test. -/
def tierCheck (s : State) (k : Slot) : Bool :=
  (!(s.sessOf k).state.isOpen || (match (s.sessOf k).desc with
    | some d => d.listOk
    | none => false)) &&
  (match s.leaseOf k with
    | none => true
    | some l => decide (1 ≤ l.tier ∧ l.tier ≤ s.tiersOf k ∧ l.draw = s.drawOf k l.tier) &&
      (match l.trans with
        | none => true
        | some (.raise t d _) => decide ((s.sessOf k).state = .on ∧ l.tier < t ∧ t ≤ s.tiersOf k ∧ d = s.drawOf k t)
        | some (.lower t d _ _) => decide ((s.sessOf k).state = .on ∧ t < l.tier ∧ d = s.drawOf k t))) &&
  (match s.entryOf k with
    | none => true
    | some e => decide (1 ≤ e.least ∧ e.least ≤ e.wanted ∧ e.wanted ≤ s.tiersOf k))

theorem tierLaw_of_check {s : State} (h : ∀ k, tierCheck s k = true) : s.TierLaw := by
  intro k
  have hk := h k
  simp only [tierCheck, Bool.and_eq_true] at hk
  obtain ⟨⟨h1, h2⟩, h3⟩ := hk
  refine ⟨fun ho => ?_, fun l hl => ?_, fun e he => ?_⟩
  · cases hd : (s.sessOf k).desc with
    | none => simp [ho, hd] at h1
    | some d => exact ⟨d, rfl, by simpa [ho, hd] using h1⟩
  · simp only [hl, Bool.and_eq_true, decide_eq_true_eq] at h2
    obtain ⟨⟨a, b, c⟩, h2⟩ := h2
    refine ⟨a, b, c, fun x hx => ?_⟩
    cases x <;> simpa [hx, State.TransitionLaw] using h2
  · simpa [he] using h3

/-- `State.EarmarkLaw`, as a test. -/
def earmarkCheck (s : State) : Bool :=
  match s.alloc.reclaim with
  | none => decide (s.alloc.earmark = 0)
  | some r => decide (s.alloc.earmark ≤ r.shortfall ∧ 1 ≤ r.shortfall)

theorem earmarkLaw_of_check {s : State} (h : earmarkCheck s = true) : s.EarmarkLaw := by
  unfold earmarkCheck at h
  unfold State.EarmarkLaw
  split <;> simp_all

/-- `State.ReclaimLaw`, as a test. -/
def reclaimCheck (s : State) : Bool :=
  match s.alloc.reclaim with
  | none => true
  | some r => (s.entryOf r.slot).any (fun e => e.tag == r.tag) && r.victims.all s.lowering

theorem reclaimLaw_of_check {s : State} (h : reclaimCheck s = true) : s.ReclaimLaw := by
  intro r hr
  simp only [reclaimCheck, hr, Bool.and_eq_true, Option.any_eq_true, beq_iff_eq, List.all_eq_true] at h
  refine ⟨h.1, fun k hk => ?_⟩
  have hl := h.2 k hk
  unfold State.lowering Lease.lowering at hl
  repeat' split at hl
  all_goals first | exact absurd hl (by decide) | exact ⟨_, _, _, _, _, by assumption, by assumption⟩

theorem lawful_of_checks {s : State} (h1 : s.store.startDone = true) (h2 : s.alloc.committed = sumSlots s.commitment)
    (h3 : earmarkCheck s = true) (h4 : (Image.mk s.store.activeGen s.cmd.policy s.cmd.settings).ok = true)
    (h5 : (s.alloc.queue.map Entry.slot).Nodup) (h6 : s.Settled) (h7 : s.Coherent) (h8 : ∀ k, tierCheck s k = true)
    (h9 : s.BudgetLaw) (h10 : reclaimCheck s = true) : s.Lawful where
  load := by simp [State.LoadLaw, h1]
  committed := h2
  earmark := earmarkLaw_of_check h3
  reclaim := reclaimLaw_of_check h10
  policy := h4
  entry := h5
  settled := h6
  coherent := h7
  tier := tierLaw_of_check h8
  budget := h9

/-- A state in which every law holds and none is idle: slot 0 lowered for slot 1's waiting claim. -/
theorem beneficiary_lawful : beneficiary.Lawful :=
  lawful_of_checks (by decide +kernel) (by decide +kernel) (by decide +kernel) (by decide +kernel)
    (by decide +kernel) (by unfold State.Settled; decide +kernel) (by unfold State.Coherent State.SlotLaw; decide +kernel)
    (by decide +kernel) (by unfold State.BudgetLaw; decide +kernel) (by decide +kernel)

theorem two_lawful : (two .on .on).Lawful :=
  lawful_of_checks (by decide +kernel) (by decide +kernel) (by decide +kernel) (by decide +kernel)
    (by decide +kernel) (by unfold State.Settled; decide +kernel) (by unfold State.Coherent State.SlotLaw; decide +kernel)
    (by decide +kernel) (by unfold State.BudgetLaw; decide +kernel) (by decide +kernel)

theorem wit_ASheddingPlanCoversTheExcess : (two .on .on).Lawful ∧ (two .on .on).store.startDone = true ∧
    (two .on .on).store.state = .idle ∧ (199 : Word).toNat ≤ 32767 ∧ (0 : Word).toNat ≤ (199 : Word).toNat ∧
    (two .on .on).floorSum ≤ (199 : Word).toNat - (0 : Word).toNat ∧
    after (.setBudget 199 0) (two .on .on) (fun t => t.alloc.state = .shedding) = true :=
  ⟨two_lawful, by decide +kernel⟩

/-- A state that meets every premise of the six invariants takes a step to a next state: a READY that fills the earmark. -/
theorem wit_EveryStepKeeps : (let s := { beneficiary with pending := [.ready 0 7 1] }
      s.LoadLaw ∧ s.CommittedLaw ∧ s.EarmarkLaw ∧ s.ReclaimLaw ∧ s.PolicyLaw ∧ s.PassLaw ∧ s.NoticeLaw ∧ s.EntryLaw ∧ s.OrderLaw) ∧
    beneficiary.Lawful ∧
    (match step { beneficiary with pending := [.ready 0 7 1] } with
      | .next t => decide (t.alloc.committed = 200 ∧ t.alloc.earmark = 0 ∧ t.alloc.reclaim = none)
      | .fault _ => false
      | .refused _ => false) = true := by
  refine ⟨⟨?_, ?_, ?_, ?_, ?_, ?_, ?_, ?_, ?_⟩, beneficiary_lawful, by decide +kernel⟩
  · intro h; exact absurd h (by decide +kernel)
  · unfold State.CommittedLaw; decide +kernel
  · exact earmarkLaw_of_check (by decide +kernel)
  · exact reclaimLaw_of_check (by decide +kernel)
  · unfold State.PolicyLaw; decide +kernel
  · unfold State.PassLaw; decide +kernel
  · unfold State.NoticeLaw; decide +kernel
  · unfold State.EntryLaw; decide +kernel
  · unfold State.OrderLaw; decide +kernel

end Sys2Proof.Tests
end

section
/-! PROOFS. The reset state meets every law; the laws that each move of Laws/Moves.lean keeps: live policy, pass counts, notices. -/

namespace Sys2Proof.Machine

/-! ### The reset state -/

/-- Settles O3: the reset tables, read off slot by slot. -/
theorem resetLeavesEveryBlockAtRest : Obligations.ResetLeavesEveryBlockAtRest := by
  unfold Obligations.ResetLeavesEveryBlockAtRest
  refine ⟨fun k => ?_, ?_⟩
  · fin_cases k <;> decide
  · decide

/-- The live policy and the blocks that the laws speak of hold their reset values. -/
structure State.AtRest (s : State) : Prop where
  alloc : s.alloc = Allocator.reset
  power : s.power = PowerPath.reset
  sess : s.sess = PerSlot.all Session.reset
  cmd : s.cmd = CommandUnit.reset
  notices : s.notices = NoticeQueue.reset

theorem reset_atRest : State.reset.AtRest := ⟨rfl, rfl, rfl, rfl, rfl⟩

theorem deviceReset_atRest (b : Bool) (s : State) : (s.deviceReset b).AtRest := ⟨rfl, rfl, rfl, rfl, rfl⟩

namespace State.AtRest

variable {s : State} (h : s.AtRest)
include h

theorem loadLaw : s.LoadLaw := fun _ => ⟨h.alloc, h.power, h.sess⟩

theorem queue : s.alloc.queue = [] := by rw [h.alloc]; rfl

theorem reclaim : s.alloc.reclaim = none := by rw [h.alloc]; rfl

theorem leaseOf (k : Slot) : s.leaseOf k = none := by unfold State.leaseOf; rw [h.alloc]; exact PerSlot.get_all _ _

theorem sessOf (k : Slot) : s.sessOf k = Session.reset := by unfold State.sessOf; rw [h.sess]; exact PerSlot.get_all _ _

theorem rampOf (k : Slot) : s.rampOf k = Ramp.reset := by unfold State.rampOf; rw [h.power]; exact PerSlot.get_all _ _

theorem entryOf (k : Slot) : s.entryOf k = none := by unfold State.entryOf; rw [h.queue]; rfl

theorem commitment (k : Slot) : s.commitment k = 0 := by
  unfold State.commitment State.floorOf State.policyOf
  rw [h.leaseOf, h.cmd]
  show max (((PerSlot.all PolicyRecord.factory).get k).floorTerm) _ = _
  rw [PerSlot.get_all]; rfl

theorem committedLaw : s.CommittedLaw := by
  have hc : s.commitment = fun _ => 0 := funext h.commitment
  unfold State.CommittedLaw; rw [hc, h.alloc]; rfl

theorem earmarkLaw : s.EarmarkLaw := by unfold State.EarmarkLaw; rw [h.reclaim, h.alloc]; rfl

theorem reclaimLaw : s.ReclaimLaw := by intro r hr; rw [h.reclaim] at hr; cases hr

theorem policyLaw : s.PolicyLaw := by unfold State.PolicyLaw; rw [h.cmd]; rfl

theorem settled : s.Settled := by
  unfold State.Settled; rw [h.alloc, h.power]
  exact ⟨rfl, fun hs => absurd hs (by decide), fun _ _ => rfl⟩

theorem coherent : s.Coherent := by
  have hq : s.power.queue = [] := by rw [h.power]; rfl
  refine ⟨fun k => ?_, by rw [hq]; exact List.nodup_nil, by rw [hq]; exact List.Pairwise.nil⟩
  have hh : s.power.holder = none := by rw [h.power]; rfl
  unfold State.SlotLaw
  rw [h.leaseOf, h.sessOf, h.rampOf, h.entryOf, hq, hh]
  simp [Session.reset, Ramp.reset, SessState.leased, SessState.gateOn, SessState.auxOn, SessState.rampOk]

theorem tierLaw : s.TierLaw := by
  intro k
  rw [h.sessOf, h.leaseOf, h.entryOf]
  exact ⟨fun hx => (Bool.false_ne_true hx).elim, fun _ hx => (by cases hx), fun _ hx => (by cases hx)⟩

theorem budgetLaw : s.BudgetLaw := by unfold State.BudgetLaw; rw [h.alloc]; exact Nat.zero_le _

theorem lawful : s.Lawful :=
  ⟨h.loadLaw, h.committedLaw, h.earmarkLaw, h.reclaimLaw, h.policyLaw, by unfold State.EntryLaw; rw [h.queue]; exact List.nodup_nil,
    h.settled, h.coherent, h.tierLaw, h.budgetLaw⟩

theorem passLaw : s.PassLaw := by intro e he; rw [h.queue] at he; cases he

theorem noticeLaw : s.NoticeLaw := by unfold State.NoticeLaw; rw [h.notices]; exact ⟨Nat.zero_le _, Nat.zero_le _⟩

end State.AtRest

/-- Settles O4: every law holds of a state whose blocks are at rest, and the reset state is one. -/
theorem resetMeetsEveryLaw : Obligations.ResetMeetsEveryLaw :=
  ⟨reset_atRest.lawful, by unfold State.OrderLaw; rw [reset_atRest.queue]; exact List.Pairwise.nil, reset_atRest.passLaw,
    reset_atRest.noticeLaw⟩

/-! ### The live policy -/

/-- The live policy that a lawful state holds: every record and setting in its range, and the floor law. -/
theorem policyLaw_iff {s : State} :
    s.PolicyLaw ↔ (∀ k, (s.policyOf k).inRange = true) ∧ s.settings.inRange = true ∧ s.floorSum ≤ s.available := by
  have hall : allSlots.all (fun k => (s.policyOf k).inRange) = true ↔ ∀ k, (s.policyOf k).inRange = true := by
    rw [List.all_eq_true]
    exact ⟨fun h k => h k (mem_allSlots k), fun h k _ => h k⟩
  unfold State.PolicyLaw Image.ok
  rw [Bool.and_eq_true, Bool.and_eq_true, decide_eq_true_eq, and_assoc]
  exact and_congr hall Iff.rfl

/-- Only the policy and the settings count for the law of the live policy. -/
theorem State.PolicyLaw.congr {s t : State} (h : s.PolicyLaw) (hp : t.cmd.policy = s.cmd.policy)
    (hs : t.cmd.settings = s.cmd.settings) : t.PolicyLaw := by
  unfold State.PolicyLaw Image.ok Image.floorSum at *
  dsimp only at h ⊢
  rw [hp, hs]; exact h

/-- A sum over the slots after a change at slot `k` alone. -/
theorem sumSlots_update {f g : Slot → Nat} {k : Slot} (h : ∀ j, j ≠ k → g j = f j) :
    sumSlots g + f k = sumSlots f + g k := by
  have h0 := h 0; have h1 := h 1; have h2 := h 2; have h3 := h 3
  have h4 := h 4; have h5 := h 5; have h6 := h 6; have h7 := h 7
  unfold sumSlots
  fin_cases k <;> simp_all <;> omega

theorem le_sumSlots (f : Slot → Nat) (k : Slot) : f k ≤ sumSlots f := by
  have hs : sumSlots f = ∑ j, f j := by simp only [sumSlots, Fin.sum_univ_eight]
  rw [hs]; exact Finset.single_le_sum (fun _ _ => Nat.zero_le _) (Finset.mem_univ k)

theorem floorOf_setPolicy {s : State} {k : Slot} {r : PolicyRecord} (j : Slot) :
    (s.setPolicy k r).floorOf j = if j = k then r.floorTerm else s.floorOf j := by
  unfold State.floorOf; rw [State.policyOf_setPolicy]; split <;> rfl

theorem floorSum_setPolicy {s : State} {k : Slot} {r : PolicyRecord} :
    (s.setPolicy k r).floorSum + s.floorOf k = s.floorSum + r.floorTerm := by
  have h := sumSlots_update (f := s.floorOf) (g := (s.setPolicy k r).floorOf) (k := k)
    (fun j hj => by rw [floorOf_setPolicy, if_neg hj])
  rwa [floorOf_setPolicy, if_pos rfl] at h

/-- What an APPLY_POLICY that passes its checks has passed (R161). -/
theorem applyCheck_ok {s : State} {k : Slot} {r : PolicyRecord} (h : s.applyCheck k r = .ok) :
    r.inRange = true ∧ s.floorSum + r.floorTerm ≤ s.available + s.floorOf k ∧
      (s.commitment k < max r.floorTerm (Lease.term (s.leaseOf k)) →
        (max r.floorTerm (Lease.term (s.leaseOf k)) : Nat) - (s.commitment k : Int) ≤ s.free ∧ s.alloc.state ≠ .shedding) := by
  unfold State.applyCheck at h
  dsimp only at h
  split at h
  · cases h
  split at h
  · cases h
  split at h
  · cases h
  rename_i h1 h2 h3
  refine ⟨by simpa using h1, by omega, fun hlt => ?_⟩
  have h4 : ¬ (s.free < (max r.floorTerm (Lease.term (s.leaseOf k)) : Nat) - (s.commitment k : Int) ∨ s.alloc.state = .shedding) :=
    fun h => h3 ⟨hlt, h⟩
  rw [not_or, not_lt] at h4
  exact h4

theorem policyLaw_setPolicy {s : State} {k : Slot} {r : PolicyRecord} (h : s.applyCheck k r = .ok) (hs : s.PolicyLaw) :
    (s.setPolicy k r).PolicyLaw := by
  obtain ⟨hrange, hfloor, _⟩ := applyCheck_ok h
  obtain ⟨hrecords, hsettings, hsum⟩ := policyLaw_iff.1 hs
  refine policyLaw_iff.2 ⟨fun j => ?_, hsettings, ?_⟩
  · rw [State.policyOf_setPolicy]; split
    · exact hrange
    · exact hrecords j
  · have := floorSum_setPolicy (s := s) (k := k) (r := r)
    show (s.setPolicy k r).floorSum ≤ s.available
    omega

theorem move_keeps_policyLaw {s t : State} (h : Move s t) (hs : s.PolicyLaw) : t.PolicyLaw := by
  cases h with
  | outside _ hp hset _ _ => exact hs.congr hp hset
  | pop _ _ _ _ _ hc _ => exact hs.congr (by rw [hc]) (by rw [hc])
  | clear _ _ hp hset _ => exact hs.congr hp hset
  | deadlines _ hc _ _ => exact hs.congr (by rw [hc]) (by rw [hc])
  | policy k r hok => exact policyLaw_setPolicy hok hs
  | settings f _ hr hf =>
    obtain ⟨hrecords, hsettings, hsum⟩ := policyLaw_iff.1 hs
    exact policyLaw_iff.2 ⟨hrecords, hr hsettings, hf hsum⟩
  | passLimit n hn =>
    obtain ⟨hrecords, hsettings, hsum⟩ := policyLaw_iff.1 hs
    refine policyLaw_iff.2 ⟨hrecords, ?_, hsum⟩
    show Settings.inRange { s.settings with passLimit := n } = true
    simp only [Settings.inRange, Bool.and_eq_true, decide_eq_true_eq] at hsettings ⊢
    simp only [hsettings, hn, and_self]
  | reset b => exact (deviceReset_atRest b s).policyLaw
  | post | flags | lease | leave | requeue | join | rekey | reclaimEnd | reclaimBegin | earmark => exact hs.congr rfl rfl

/-- A copy that classifies as VALID holds an image in range. -/
theorem image?_ok {c : Copy} {i : Image} (h : c.image? = some i) : i.ok = true := by
  unfold Copy.image? Copy.classify at h
  cases c with
  | blank => cases h
  | partly => cases h
  | unchecked j => by_cases hj : j.ok = true ∧ j.check = 0xFFFF <;> simp_all
  | whole j => by_cases hj : j.ok = true <;> simp_all

/-- What the load takes is an image in range, whatever the copies hold (R144, R146). -/
theorem loadedImage_ok (a b : Copy) : (loadedImage (chooseSource a.image? b.image?).2).ok = true := by
  unfold chooseSource
  cases ha : a.image? with
  | none =>
    cases hb : b.image? with
    | none => rfl
    | some y => exact image?_ok hb
  | some x =>
    cases hb : b.image? with
    | none => exact image?_ok ha
    | some y =>
      dsimp only
      split
      · exact image?_ok hb
      · exact image?_ok ha

theorem load_keeps_policyLaw (s : State) : s.load.PolicyLaw := loadedImage_ok s.store.copyA s.store.copyB

/-! ### Pass counts -/

theorem mem_insertEntry {e x : Entry} {q : List Entry} : x ∈ insertEntry e q ↔ x = e ∨ x ∈ q := by
  induction q with
  | nil => simp [insertEntry]
  | cons y ys ih =>
    unfold insertEntry; split
    · simp only [List.mem_cons, ih]; tauto
    · simp only [List.mem_cons]

theorem State.PassLaw.congr {s t : State} (h : s.PassLaw) (hq : t.alloc.queue = s.alloc.queue)
    (hs : t.settings.passLimit = s.settings.passLimit) : t.PassLaw := by
  unfold State.PassLaw at *; rw [hq, hs]; exact h

theorem mem_of_entryOf {s : State} {k : Slot} {e : Entry} (h : s.entryOf k = some e) : e ∈ s.alloc.queue :=
  List.mem_of_find?_eq_some h

theorem move_keeps_passLaw {s t : State} (h : Move s t) (hs : s.PassLaw) : t.PassLaw := by
  have hset : t.cmd.settings = s.cmd.settings → t.settings.passLimit = s.settings.passLimit := fun h => congrArg _ h
  cases h with
  | outside ha _ hc _ _ => exact hs.congr (by rw [ha]) (hset hc)
  | pop _ _ _ _ ha hc _ => exact hs.congr (by rw [ha]) (hset (by rw [hc]))
  | clear _ ha _ hc _ => exact hs.congr (by rw [ha]) (hset hc)
  | deadlines ha hc _ _ => exact hs.congr (by rw [ha]) (hset (by rw [hc]))
  | settings f hp _ _ => exact hs.congr rfl hp
  | passLimit n _ =>
    intro e he
    obtain ⟨x, _, rfl⟩ := List.mem_map.1 he
    exact Nat.min_le_right _ _
  | leave p => exact fun e he => hs e (List.mem_of_mem_filter he)
  | requeue q _ hq => exact hq hs
  | join e _ hp =>
    intro x hx
    rcases mem_insertEntry.1 hx with rfl | hx
    · rw [hp]; exact Nat.zero_le _
    · exact hs x hx
  | rekey k e c r he =>
    intro x hx
    rcases mem_insertEntry.1 hx with rfl | hx
    · exact hs e (mem_of_entryOf he)
    · exact hs x (List.mem_of_mem_filter hx)
  | reset b => exact (deviceReset_atRest b s).passLaw
  | post | flags | lease | policy | reclaimEnd | reclaimBegin | earmark => exact hs.congr rfl rfl

/-! ### Notices -/

theorem take_noticeLaw {q : NoticeQueue} (h : q.records.length ≤ 32 ∧ q.lostCount ≤ 255) (n : NoticeKind) (o : Option Slot)
    (r : Reason) (b : Bool) (v : Nat) : (q.take n o r b v).records.length ≤ 32 ∧ (q.take n o r b v).lostCount ≤ 255 := by
  unfold NoticeQueue.take; split
  · exact ⟨by rw [List.length_append]; exact ‹_ < 32›, h.2⟩
  · exact ⟨h.1, Nat.min_le_left _ _⟩

theorem State.NoticeLaw.congr {s t : State} (h : s.NoticeLaw) (hn : t.notices = s.notices) : t.NoticeLaw := by
  unfold State.NoticeLaw at *; rw [hn]; exact h

theorem move_keeps_noticeLaw {s t : State} (h : Move s t) (hs : s.NoticeLaw) : t.NoticeLaw := by
  cases h with
  | outside _ _ _ hn _ => exact hs.congr hn
  | post n o r b v => exact take_noticeLaw hs n o r b v
  | pop n ns h ht _ _ _ =>
    unfold State.NoticeLaw at *
    rw [h] at hs; rw [ht]
    exact ⟨Nat.le_of_succ_le hs.1, hs.2⟩
  | clear hn _ _ _ _ => unfold State.NoticeLaw; rw [hn]; exact ⟨Nat.zero_le _, Nat.zero_le _⟩
  | deadlines _ _ hn _ => exact hs.congr hn
  | reset b => exact (deviceReset_atRest b s).noticeLaw
  | flags | lease | policy | settings | passLimit | leave | requeue | join | rekey | reclaimEnd | reclaimBegin | earmark =>
    exact hs.congr rfl

/-- Settles O56: each of the three laws is kept by every move and by the load. -/
theorem everyStepKeepsPolicyPassCountsAndNotices : Obligations.EveryStepKeepsPolicyPassCountsAndNotices := by
  intro s t hl hpolicy hpass hnotice h
  refine ⟨step_keeps move_keeps_policyLaw (fun _ _ _ => load_keeps_policyLaw _) hl hpolicy h,
    step_keeps move_keeps_passLaw (fun {u} hu hd _ => ?_) hl hpass h,
    step_keeps move_keeps_noticeLaw (fun _ _ hn => take_noticeLaw hn _ _ _ _ _) hl hnotice h⟩
  obtain ⟨ha, _, _⟩ := hu hd
  intro e he
  have hq : u.load.alloc.queue = [] := by show u.alloc.queue = []; rw [ha]; rfl
  rw [hq] at he; cases he

end Sys2Proof.Machine
end

section
/-! PROOFS. What a happening does to lease, session, path, queue, policy and budget, as a sequence of deeds. The moves of Laws/Moves.lean
say what changes in the Allocator; a deed says as well why the change keeps slots, tiers and budget in agreement. Between two deeds of
one happening a dropped lease may have left its session unsettled, and a changed budget may not have been tested yet: both are owed. -/

namespace Sys2Proof.Machine

/-! ### What the laws look at -/

/-- What the laws look at in a session. -/
def Session.phase (x : Session) : SessState × Bool × Option Descriptor := (x.state, x.admitFlag, x.desc)

/-- What the laws look at in a ramp record. -/
def Ramp.phase (r : Ramp) : RampState × Bool × Bool × PowerClass := (r.state, r.gate, r.aux, r.cls)

/-- What the laws look at in an entry of a known slot. -/
def Entry.claim (e : Entry) : Byte × Nat × Nat := (e.tag, e.wanted, e.least)

/-- `t` differs from `s` only in what no law of the slots and the budget looks at. -/
structure State.Alike (s t : State) : Prop where
  committed : t.alloc.committed = s.alloc.committed
  earmark : t.alloc.earmark = s.alloc.earmark
  leases : t.alloc.leases = s.alloc.leases
  mode : t.alloc.state = s.alloc.state
  reclaim : t.alloc.reclaim = s.alloc.reclaim
  entry : ∀ k, (t.entryOf k).map Entry.claim = (s.entryOf k).map Entry.claim
  policy : t.cmd.policy = s.cmd.policy
  available : t.available = s.available
  sess : ∀ k, (t.sessOf k).phase = (s.sessOf k).phase
  ramp : ∀ k, (t.rampOf k).phase = (s.rampOf k).phase
  queue : t.power.queue = s.power.queue
  holder : t.power.holder = s.power.holder
  startDone : t.store.startDone = s.store.startDone

namespace State.Alike

variable {s t u : State}

theorem refl (s : State) : s.Alike s :=
  ⟨rfl, rfl, rfl, rfl, rfl, fun _ => rfl, rfl, rfl, fun _ => rfl, fun _ => rfl, rfl, rfl, rfl⟩

theorem trans (h : s.Alike t) (g : t.Alike u) : s.Alike u :=
  ⟨g.committed.trans h.committed, g.earmark.trans h.earmark, g.leases.trans h.leases, g.mode.trans h.mode, g.reclaim.trans h.reclaim,
    fun k => (g.entry k).trans (h.entry k), g.policy.trans h.policy, g.available.trans h.available,
    fun k => (g.sess k).trans (h.sess k), fun k => (g.ramp k).trans (h.ramp k), g.queue.trans h.queue, g.holder.trans h.holder,
    g.startDone.trans h.startDone⟩

/-- States that differ outside Allocator, sessions, path, policy, settings and store, but for the pass mark and the sag condition. -/
theorem of_eq (p c : Bool) (ha : t.alloc = { s.alloc with passDue := p, sagCondition := c }) (hc : t.cmd.policy = s.cmd.policy)
    (hx : t.cmd.settings = s.cmd.settings) (hs : t.sess = s.sess) (hp : t.power = { s.power with hold := t.power.hold })
    (hd : t.store.startDone = s.store.startDone) : s.Alike t where
  committed := by rw [ha]
  earmark := by rw [ha]
  leases := by rw [ha]
  mode := by rw [ha]
  reclaim := by rw [ha]
  entry k := by unfold State.entryOf; rw [ha]
  policy := hc
  available := by unfold State.available State.settings; rw [hx]
  sess k := by unfold State.sessOf; rw [hs]
  ramp k := by unfold State.rampOf; rw [hp]
  queue := by rw [hp]
  holder := by rw [hp]
  startDone := hd

variable (h : s.Alike t) (k : Slot)
include h

theorem leaseOf : t.leaseOf k = s.leaseOf k := by unfold State.leaseOf; rw [h.leases]

theorem state : (t.sessOf k).state = (s.sessOf k).state := congrArg (fun x => x.1) (h.sess k)

theorem admitFlag : (t.sessOf k).admitFlag = (s.sessOf k).admitFlag := congrArg (fun x => x.2.1) (h.sess k)

theorem desc : (t.sessOf k).desc = (s.sessOf k).desc := congrArg (fun x => x.2.2) (h.sess k)

theorem entry_some {e : Entry} (he : t.entryOf k = some e) : ∃ x, s.entryOf k = some x ∧ x.claim = e.claim := by
  have := h.entry k
  rw [he] at this
  exact Option.map_eq_some_iff.1 this.symm

end State.Alike

/-! ### Commitments -/

/-- Only floors and leases count for the commitments. -/
theorem commitment_congr {s t : State} (hp : t.cmd.policy = s.cmd.policy) (hl : t.alloc.leases = s.alloc.leases) :
    t.commitment = s.commitment := by
  funext k
  unfold State.commitment State.floorOf State.policyOf State.leaseOf
  rw [hp, hl]

theorem commitment_setLease {s : State} {k : Slot} {l : Option Lease} (j : Slot) :
    (s.setLease k l).commitment j = if j = k then max (s.floorOf k) (Lease.term l) else s.commitment j := by
  show max (s.floorOf j) (Lease.term ((s.setLease k l).leaseOf j)) = _
  rw [State.leaseOf_setLease]; split
  · subst_vars; rfl
  · rfl

theorem committed_setLease {s : State} {k : Slot} {l : Option Lease} :
    (s.setLease k l).alloc.committed = s.alloc.committed + max (s.floorOf k) (Lease.term l) - s.commitment k := by
  have h := commitment_setLease (s := s) (k := k) (l := l) k
  rw [if_pos rfl] at h
  rw [← h]; rfl

theorem commitment_setPolicy {s : State} {k : Slot} {r : PolicyRecord} (j : Slot) :
    (s.setPolicy k r).commitment j = if j = k then max r.floorTerm (Lease.term (s.leaseOf k)) else s.commitment j := by
  show max ((s.setPolicy k r).floorOf j) (Lease.term (s.leaseOf j)) = _
  rw [floorOf_setPolicy]; split
  · subst_vars; rfl
  · rfl

theorem committed_setPolicy {s : State} {k : Slot} {r : PolicyRecord} :
    (s.setPolicy k r).alloc.committed = s.alloc.committed + max r.floorTerm (Lease.term (s.leaseOf k)) - s.commitment k := by
  have h := commitment_setPolicy (s := s) (k := k) (r := r) k
  rw [if_pos rfl] at h
  rw [← h]; rfl

/-- A slot's commitment is part of committed (R4). -/
theorem State.CommittedLaw.le {s : State} (h : s.CommittedLaw) (k : Slot) : s.commitment k ≤ s.alloc.committed := by
  rw [h]; exact le_sumSlots s.commitment k

/-- Committed stays the sum when one slot's commitment changes and committed follows it (R4). -/
theorem State.CommittedLaw.update {s t : State} {k : Slot} (h : s.CommittedLaw) (ho : ∀ j, j ≠ k → t.commitment j = s.commitment j)
    (hc : t.alloc.committed = s.alloc.committed + t.commitment k - s.commitment k) : t.CommittedLaw := by
  have hsum := sumSlots_update (f := s.commitment) (g := t.commitment) (k := k) ho
  have hle := h.le k
  unfold State.CommittedLaw at h ⊢
  omega

/-! ### Small updates of the Allocator -/

/-- The Allocator's state becomes `a` (R19). -/
def State.withMode (a : AllocState) (s : State) : State := { s with alloc := { s.alloc with state := a } }

/-- Reclaim record and earmark become `r` and `n` (R56). -/
def State.withReclaim (r : Option Reclaim) (n : Nat) (s : State) : State := { s with alloc := { s.alloc with reclaim := r, earmark := n } }

/-! ### What is owed -/

/-- What a happening under way still owes: the slots whose lease it has dropped and whose session has not settled, and the test
for shedding after a change of available (R66). -/
structure Owed where
  unsettled : Finset Slot
  untested : Bool

/-- Nothing is owed. -/
def Owed.nothing : Owed := ⟨∅, false⟩

/-- `State.SlotLaw`, where slot `k` may be one of those whose lease has been dropped and whose session has not settled. -/
structure State.SlotLawBut (B : Finset Slot) (s : State) (k : Slot) : Prop where
  settled : k ∉ B → (s.leaseOf k).isSome = (s.sessOf k).state.leased ∧ (s.rampOf k).gate = (s.sessOf k).state.gateOn ∧
    (s.sessOf k).state.rampOk (s.rampOf k).state = true
  unsettled : k ∈ B → s.leaseOf k = none ∧ (s.sessOf k).state.leased = true ∧ (s.rampOf k).gate = false ∧
    (s.rampOf k).state = .none
  aux : (s.rampOf k).aux = (s.sessOf k).state.auxOn
  queued : k ∈ s.power.queue ↔ (s.rampOf k).state = .queued
  holds : s.power.holder = some k ↔ (s.rampOf k).state = .ramping
  entry : (s.entryOf k).isSome = true →
    (s.sessOf k).state = .on ∨ ((s.sessOf k).state = .standby ∧ (s.sessOf k).admitFlag = true)

/-- No DEFERRABLE slot stands ahead of an ESSENTIAL one, by the classes `cls` (R117). -/
def ClassOrdered (cls : Slot → PowerClass) (q : List Slot) : Prop := q.Pairwise (fun i j => cls i = .deferrable → cls j = .deferrable)

/-- `State.Coherent`, with the sessions of `B` unsettled. -/
structure State.CoherentBut (B : Finset Slot) (s : State) : Prop where
  slot : ∀ k, s.SlotLawBut B k
  nodup : s.power.queue.Nodup
  ordered : ClassOrdered (fun k => (s.rampOf k).cls) s.power.queue

theorem coherentBut_empty {s : State} : s.CoherentBut ∅ ↔ s.Coherent := by
  constructor
  · rintro ⟨hslot, hnodup, hord⟩
    refine ⟨fun k => ?_, hnodup, hord⟩
    obtain ⟨hs, _, haux, hq, hh, he⟩ := hslot k
    obtain ⟨hl, hg, hr⟩ := hs (Finset.notMem_empty k)
    exact ⟨hl, hg, haux, hr, hq, hh, he⟩
  · rintro ⟨hslot, hnodup, hord⟩
    refine ⟨fun k => ?_, hnodup, hord⟩
    obtain ⟨hl, hg, haux, hr, hq, hh, he⟩ := hslot k
    exact ⟨fun _ => ⟨hl, hg, hr⟩, fun hk => absurd hk (Finset.notMem_empty k), haux, hq, hh, he⟩

/-- `State.BudgetLaw`, where the test for shedding may still be to come. -/
structure State.BudgetBut (untested : Bool) (s : State) : Prop where
  shedding : s.alloc.state = .shedding → s.alloc.reclaim = none
  within : s.alloc.state ≠ .shedding → untested = false → s.alloc.committed + s.alloc.earmark ≤ s.available

theorem budgetBut_false {s : State} : s.BudgetBut false ↔ s.BudgetLaw := by
  unfold State.BudgetLaw
  constructor
  · rintro ⟨h1, h2⟩
    split
    · exact h1 ‹_›
    · exact h2 ‹_› rfl
  · intro h
    split at h
    · exact ⟨fun _ => h, fun hn => absurd ‹_› hn⟩
    · exact ⟨fun hn => absurd hn ‹_›, fun _ _ => h⟩

/-- The counters' laws together: R4, R65, R56. -/
structure State.Counted (s : State) : Prop where
  committed : s.CommittedLaw
  earmark : s.EarmarkLaw
  reclaim : s.ReclaimLaw

/-- The session of slot `k` has a tier list that passed check 1 of its HELLO (R78). -/
def State.Listed (s : State) (k : Slot) : Prop := ∃ d, (s.sessOf k).desc = some d ∧ d.listOk = true

/-- Lease `l` is one that slot `k` may hold: a tier of the list with its draw, and a lawful transition (R9, R13). -/
structure State.LeaseLaw (s : State) (k : Slot) (l : Lease) : Prop where
  pos : 1 ≤ l.tier
  le : l.tier ≤ s.tiersOf k
  draw : l.draw = s.drawOf k l.tier
  trans : ∀ x, l.trans = some x → s.TransitionLaw k l.tier x

/-- The tiers of a claim of slot `k` lie in its list, least first (R22). -/
def State.ClaimLaw (s : State) (k : Slot) (e : Entry) : Prop := 1 ≤ e.least ∧ e.least ≤ e.wanted ∧ e.wanted ≤ s.tiersOf k

/-- `State.TierLaw` of one slot. -/
structure State.TierAt (s : State) (k : Slot) : Prop where
  listed : (s.sessOf k).state.isOpen = true → s.Listed k
  lease : ∀ l, s.leaseOf k = some l → s.LeaseLaw k l
  entry : ∀ e, s.entryOf k = some e → s.ClaimLaw k e

theorem tierLaw_iff {s : State} : s.TierLaw ↔ ∀ k, s.TierAt k := by
  refine forall_congr' fun k => ⟨?_, ?_⟩
  · rintro ⟨h1, h2, h3⟩
    refine ⟨h1, fun l hl => ?_, h3⟩
    obtain ⟨a, b, c, d⟩ := h2 l hl
    exact ⟨a, b, c, d⟩
  · rintro ⟨h1, h2, h3⟩
    refine ⟨h1, fun l hl => ?_, h3⟩
    obtain ⟨a, b, c, d⟩ := h2 l hl
    exact ⟨a, b, c, d⟩

/-! ### Turns of a session and its path -/

/-- A change of a session and its path that leaves the Allocator, the policy and the store alone. `B` holds the slots whose session
has not settled. -/
inductive Turn : Finset Slot → State → Finset Slot → State → Prop
  | close {B : Finset Slot} {s : State} (k : Slot) (f : Session → Session) (st : SessState) (hst : st.isOpen = false)
      (h : (s.sessOf k).state.isOpen = false ∨
        s.entryOf k = none ∧ (k ∈ B ∨ s.leaseOf k = none ∨ (s.sessOf k).state = .standby)) :
      Turn B s (B.erase k) ((s.modSess k f).enter k st)
  | welcome {B : Finset Slot} {s : State} (k : Slot) (f : Session → Session) (d : Descriptor) (h : (s.sessOf k).state.isOpen = false)
      (hd : (f (s.sessOf k)).desc = some d) (hl : d.listOk = true) : Turn B s B ((s.modSess k f).enter k .standby)
  | stand {B : Finset Slot} {s : State} (k : Slot) (hk : k ∈ B) (ha : (s.sessOf k).admitFlag = true ∨ s.entryOf k = none) :
      Turn B s (B.erase k) (s.enter k .standby)
  | flag {B : Finset Slot} {s : State} (k : Slot) (b : Bool) (h : b = true ∨ s.entryOf k = none ∨ (s.leaseOf k).isSome = true) :
      Turn B s B (s.modSess k (fun x => { x with admitFlag := b }))
  | start {B : Finset Slot} {s : State} (k : Slot) (hh : s.power.holder = none) (hq : k ∈ s.power.queue) : Turn B s B (s.startRamp k)
  | done {B : Finset Slot} {s : State} (k : Slot) (hr : (s.rampOf k).state = .ramping) : Turn B s B (s.completeRamp k)
  | backOff {B : Finset Slot} {s : State} (k : Slot) (hr : (s.rampOf k).state = .ramping) : Turn B s B (s.backOff k)
  | rejoin {B : Finset Slot} {s : State} (k : Slot) (hr : (s.rampOf k).state = .backoff) : Turn B s B (s.joinRamp k)
  | reclass {B : Finset Slot} {s : State} (k : Slot) : Turn B s B (s.reclassRamp k)

theorem completeRamp_same (s : State) (k : Slot) : (s.completeRamp k).alloc = s.alloc ∧ (s.completeRamp k).cmd = s.cmd ∧
    (s.completeRamp k).store = s.store := by
  unfold State.completeRamp State.queueRampGrant; split <;> exact ⟨rfl, rfl, rfl⟩

theorem reclassRamp_same (s : State) (k : Slot) : (s.reclassRamp k).alloc = s.alloc ∧ (s.reclassRamp k).cmd = s.cmd ∧
    (s.reclassRamp k).store = s.store ∧ (s.reclassRamp k).sess = s.sess := by
  unfold State.reclassRamp; dsimp only; split <;> exact ⟨rfl, rfl, rfl, rfl⟩

theorem Turn.same {B C : Finset Slot} {s t : State} (h : Turn B s C t) : t.alloc = s.alloc ∧ t.cmd = s.cmd ∧ t.store = s.store := by
  cases h with
  | done k _ => exact completeRamp_same s k
  | reclass k => obtain ⟨a, b, c, _⟩ := reclassRamp_same s k; exact ⟨a, b, c⟩
  | close | welcome | stand | flag | start | backOff | rejoin => exact ⟨rfl, rfl, rfl⟩

/-! ### Deeds -/

/-- One deed of a happening: what is owed and the state before it, and after it. -/
inductive Deed : Owed → State → Owed → State → Prop
  | frame {o : Owed} {s t : State} (h : s.Alike t) : Deed o s o t
  | turn {o : Owed} {s t : State} {C : Finset Slot} (h : Turn o.unsettled s C t) : Deed o s { o with unsettled := C } t
  | mode {o : Owed} {s : State} (a : AllocState) (h1 : a = .shedding → s.alloc.reclaim = none)
      (h2 : a ≠ .shedding → s.alloc.state ≠ .shedding ∨ s.alloc.committed ≤ s.available) : Deed o s o (s.withMode a)
  | limits {o : Owed} {s : State} (f : Settings → Settings) : Deed o s { o with untested := true } (s.modSettings f)
  | tested {o : Owed} {s : State} (h : s.alloc.state = .shedding ∨ s.alloc.committed + s.alloc.earmark ≤ s.available ∨
      s.alloc.reclaim = none ∧ s.alloc.committed ≤ s.available) :
      Deed o s { o with untested := false } s
  | policy {o : Owed} {s : State} (k : Slot) (r : PolicyRecord) (h : s.applyCheck k r = .ok) : Deed o s o (s.setPolicy k r)
  | drop {o : Owed} {s : State} (k : Slot) (h : (s.leaseOf k).isSome = true ∨ (s.sessOf k).state.leased = true) :
      Deed o s { o with unsettled := insert k o.unsettled } (s.dropLease k)
  | relet {o : Owed} {s : State} (k : Slot) (l l' : Lease) (hl : s.leaseOf k = some l) (hv : l.lowering = true → l'.lowering = true)
      (ht : s.Listed k → s.LeaseLaw k l → s.LeaseLaw k l' ∧ Lease.term (some l') ≤ Lease.term (some l)) :
      Deed o s o (s.setLease k (some l'))
  | kept {o : Owed} {s : State} (k : Slot) (u d : Nat) (l : Lease) (hl : s.leaseOf k = some l) (hv : l.lowering = true)
      (ht : s.Listed k → s.LeaseLaw k l → (1 ≤ u ∧ u ≤ s.tiersOf k ∧ d = s.drawOf k u) ∧ d ≤ l.draw) :
      Deed o s o (s.endLowerKept k u d)
  | tick {o : Owed} {s : State} : Deed o s o s.tick
  | grant {s : State} (e : Entry) (he : s.entryOf e.slot = some e) (hel : s.eligible e.slot = true) (ht : s.grantTier e ≠ 0)
      (hs : s.alloc.state ≠ .shedding) : Deed .nothing s .nothing (s.grant e (s.grantTier e))
  | leave {o : Owed} {s : State} (k : Slot) : Deed o s o (s.removeEntry k)
  | join {o : Owed} {s : State} (e : Entry) (he : s.entryOf e.slot = none)
      (hs : (s.sessOf e.slot).state = .on ∨ (s.sessOf e.slot).state = .standby) (ha : (s.sessOf e.slot).admitFlag = true)
      (ht : s.ClaimLaw e.slot e) : Deed o s o (s.joinEntry e)
  | retier {o : Owed} {s : State} (k : Slot) (g : EntryOrigin) (w l : Nat) (h : 1 ≤ l ∧ l ≤ w ∧ w ≤ s.tiersOf k) :
      Deed o s o (s.retier k g w l)
  | abandon {o : Owed} {s : State} : Deed o s o (s.withReclaim none 0)
  | begin {o : Owed} {s : State} (r : Reclaim) (h : s.alloc.reclaim = none) (hs : s.alloc.state ≠ .shedding) (hr : 1 ≤ r.shortfall)
      (he : ∃ e, s.entryOf r.slot = some e ∧ e.tag = r.tag) (hv : ∀ k ∈ r.victims, s.Lowers k) :
      Deed o s o (s.withReclaim (some r) s.alloc.earmark)
  | shrink {o : Owed} {s : State} (r : Reclaim) (n : Nat) (h : s.alloc.reclaim = some r) (hn : 1 ≤ n) :
      Deed o s o (s.withReclaim (some { r with shortfall := n }) (min s.alloc.earmark n))

end Sys2Proof.Machine
end

section
/-! PROOFS. The counters, the earmark and the reclaim record: every deed keeps them (R4, R56, R60, R65). -/

namespace Sys2Proof.Machine

variable {s t : State} {k : Slot}

/-! ### Entries -/

theorem slot_of_entryOf {e : Entry} (h : s.entryOf k = some e) : e.slot = k := by
  have := List.find?_some h
  simpa using this

/-- The entry that joins stands, and every other slot's entry stands as it stood. -/
theorem entryOf_joinEntry {e : Entry} (he : s.entryOf e.slot = none) (j : Slot) :
    (s.joinEntry e).entryOf j = if j = e.slot then some e else s.entryOf j := by
  have key : ∀ q : List Entry, q.find? (fun x => x.slot == e.slot) = none →
      (insertEntry e q).find? (fun x => x.slot == j) = if j = e.slot then some e else q.find? (fun x => x.slot == j) := by
    intro q
    induction q with
    | nil =>
      intro _
      by_cases hj : j = e.slot
      · simp [insertEntry, hj]
      · simp [insertEntry, hj, Ne.symm hj]
    | cons x xs ih =>
      intro hx
      rw [List.find?_cons] at hx
      have hne : (x.slot == e.slot) = false := by
        by_contra hc
        rw [Bool.not_eq_false] at hc
        rw [hc] at hx; cases hx
      rw [hne] at hx
      unfold insertEntry; split
      · rw [List.find?_cons, List.find?_cons, ih hx]
        by_cases hj : j = e.slot
        · subst hj; simp [hne]
        · simp [hj]
      · by_cases hj : j = e.slot
        · simp [hj]
        · have hb : (e.slot == j) = false := by simpa using Ne.symm hj
          rw [List.find?_cons, hb, if_neg hj]
  exact key _ he

theorem entryOf_retier {g : EntryOrigin} {w l : Nat} (j : Slot) :
    (s.retier k g w l).entryOf j =
      (s.entryOf j).map (fun x => if j = k then { x with origin := g, wanted := w, least := l } else x) := by
  unfold State.entryOf State.retier
  show List.find? _ (List.map _ s.alloc.queue) = _
  have hslot : ((fun x : Entry => x.slot == j) ∘ fun x : Entry =>
      if (x.slot == k) = true then { x with origin := g, wanted := w, least := l } else x) = fun x => x.slot == j := by
    funext x; simp only [Function.comp]; split <;> rfl
  rw [List.find?_map, hslot]
  cases hx : s.alloc.queue.find? (fun x => x.slot == j) with
  | none => rfl
  | some e =>
    have he : e.slot = j := by simpa using List.find?_some hx
    simp [he]

theorem entryOf_removeEntry_ne {j : Slot} (h : j ≠ k) : (s.removeEntry k).entryOf j = s.entryOf j := by
  obtain ⟨_, _, _, _, _, he⟩ := (onlyAt_removeEntry (s := s) (k := k)).others j h
  exact he

/-! ### The laws one by one -/

theorem State.EarmarkLaw.congr (h : s.EarmarkLaw) (hr : t.alloc.reclaim = s.alloc.reclaim) (he : t.alloc.earmark = s.alloc.earmark) :
    t.EarmarkLaw := by
  unfold State.EarmarkLaw at *; rw [hr, he]; exact h

theorem State.CommittedLaw.congr (h : s.CommittedLaw) (hc : t.alloc.committed = s.alloc.committed)
    (hl : t.commitment = s.commitment) : t.CommittedLaw := by
  unfold State.CommittedLaw at *; rw [hc, hl]; exact h

/-- The reclaim record may lose victims and change its shortfall; its entry and the LOWERs of the victims it keeps stand. -/
theorem State.ReclaimLaw.mono (h : s.ReclaimLaw)
    (hr : ∀ r, t.alloc.reclaim = some r → ∃ r', s.alloc.reclaim = some r' ∧ r.slot = r'.slot ∧ r.tag = r'.tag ∧
      (∀ k ∈ r.victims, k ∈ r'.victims ∧ (s.Lowers k → t.Lowers k)) ∧
      ∀ e, s.entryOf r.slot = some e → ∃ x, t.entryOf r.slot = some x ∧ x.tag = e.tag) : t.ReclaimLaw := by
  intro r hrt
  obtain ⟨r', hrs, hslot, htag, hv, hentry⟩ := hr r hrt
  obtain ⟨⟨e, he, het⟩, hvictims⟩ := h r' hrs
  obtain ⟨x, hx, hxt⟩ := hentry e (by rw [hslot]; exact he)
  exact ⟨⟨x, hx, by rw [hxt, het, htag]⟩, fun j hj => (hv j hj).2 (hvictims j (hv j hj).1)⟩

theorem State.ReclaimLaw.of_none (h : t.alloc.reclaim = none) : t.ReclaimLaw := by
  intro r hr; rw [h] at hr; cases hr

theorem lowers_congr (h : t.leaseOf k = s.leaseOf k) : s.Lowers k → t.Lowers k := by
  unfold State.Lowers; rw [h]; exact id

/-- Committed and leases as they were, reclaim and earmark too, and every entry with its tag. -/
theorem State.Counted.congr (h : s.Counted) (hc : t.alloc.committed = s.alloc.committed) (hl : t.alloc.leases = s.alloc.leases)
    (hp : t.cmd.policy = s.cmd.policy) (hr : t.alloc.reclaim = s.alloc.reclaim) (he : t.alloc.earmark = s.alloc.earmark)
    (hentry : ∀ j e, s.entryOf j = some e → ∃ x, t.entryOf j = some x ∧ x.tag = e.tag) : t.Counted where
  committed := h.committed.congr hc (commitment_congr hp hl)
  earmark := h.earmark.congr hr he
  reclaim := h.reclaim.mono fun r hrt => ⟨r, hr ▸ hrt, rfl, rfl,
    fun j hj => ⟨hj, lowers_congr (by unfold State.leaseOf; rw [hl])⟩, fun e => hentry _ e⟩

/-- Nothing of the Allocator or the policy changed. -/
theorem State.Counted.congr_alloc (h : s.Counted) (ha : t.alloc = s.alloc) (hp : t.cmd.policy = s.cmd.policy) : t.Counted :=
  h.congr (by rw [ha]) (by rw [ha]) hp (by rw [ha]) (by rw [ha]) (fun j e he => ⟨e, (entryOf_eq_of_queue (by rw [ha])).trans he, rfl⟩)

theorem State.Counted.alike (h : s.Counted) (ha : s.Alike t) : t.Counted := by
  refine h.congr ha.committed ha.leases ha.policy ha.reclaim ha.earmark fun j e he => ?_
  have := ha.entry j
  rw [he] at this
  obtain ⟨x, hx, hc⟩ := Option.map_eq_some_iff.1 this
  exact ⟨x, hx, congrArg (fun c => c.1) hc⟩

/-! ### Leases -/

theorem committedLaw_setLease {l : Option Lease} (h : s.CommittedLaw) : (s.setLease k l).CommittedLaw := by
  refine h.update (k := k) (fun j hj => ?_) rfl
  rw [commitment_setLease, if_neg hj]

/-- A lease that lowers is replaced by one that lowers, and any other by any. -/
theorem State.Counted.setLease {l : Option Lease} (h : s.Counted) (hv : s.Lowers k → (s.setLease k l).Lowers k) :
    (s.setLease k l).Counted where
  committed := committedLaw_setLease h.committed
  earmark := h.earmark.congr rfl rfl
  reclaim := by
    refine h.reclaim.mono fun r hr => ⟨r, hr, rfl, rfl, fun j hj => ⟨hj, ?_⟩, fun e he => ⟨e, he, rfl⟩⟩
    by_cases hjk : j = k
    · subst hjk; exact hv
    · exact lowers_congr (by rw [State.leaseOf_setLease, if_neg hjk])

/-- The end of a LOWER (R18, R60): the lease becomes `l`, and a marked LOWER's fall goes to the earmark. -/
theorem State.Counted.endLower {l : Option Lease} (h : s.Counted) (f : Nat) : ((s.setLease k l).creditVictim k f).Counted := by
  obtain ⟨_, _, _, _, hleases, hcommitted, hqueue, _⟩ := creditVictim_frame (s := s.setLease k l) (k := k) (n := f)
  have hcmd : ((s.setLease k l).creditVictim k f).cmd = s.cmd := (onlyAt_creditVictim (s := s.setLease k l)).host.2.1
  have hlease : ∀ j, j ≠ k → ((s.setLease k l).creditVictim k f).leaseOf j = s.leaseOf j := by
    intro j hj
    unfold State.leaseOf; rw [hleases]; exact PerSlot.get_set_ne _ _ hj
  obtain ⟨hmarked, hplain⟩ := creditVictim_credits (s := s) (u := s.setLease k l) (k := k) (f := f) ⟨rfl, rfl⟩
  refine ⟨(committedLaw_setLease h.committed).congr hcommitted (commitment_congr (by rw [hcmd]; rfl) hleases), ?_, ?_⟩
  · cases hr : s.alloc.reclaim with
    | none =>
      obtain ⟨h1, h2⟩ := hplain (fun r hr' => by rw [hr] at hr'; cases hr')
      exact h.earmark.congr h1 h2
    | some r =>
      by_cases hk : k ∈ r.victims
      · obtain ⟨h1, h2⟩ := hmarked r hr hk
        have hold := h.earmark
        unfold State.EarmarkLaw at hold ⊢
        rw [hr] at hold; rw [h2, h1]
        dsimp only at hold ⊢
        omega
      · obtain ⟨h1, h2⟩ := hplain (fun r' hr' => by rw [hr] at hr'; cases hr'; exact hk)
        exact h.earmark.congr h1 h2
  · refine h.reclaim.mono fun r hr => ?_
    have hentry : ∀ e, s.entryOf r.slot = some e →
        ∃ x, ((s.setLease k l).creditVictim k f).entryOf r.slot = some x ∧ x.tag = e.tag :=
      fun e he => ⟨e, (entryOf_eq_of_queue (s := s) hqueue).trans he, rfl⟩
    cases hr' : s.alloc.reclaim with
    | none =>
      obtain ⟨h1, _⟩ := hplain (fun r hr => by rw [hr'] at hr; cases hr)
      rw [h1, hr'] at hr; cases hr
    | some r' =>
      by_cases hk : k ∈ r'.victims
      · obtain ⟨_, h2⟩ := hmarked r' hr' hk
        rw [h2] at hr; cases hr
        refine ⟨_, rfl, rfl, rfl, fun j hj => ?_, hentry⟩
        obtain ⟨hj, hne⟩ := List.mem_filter.1 hj
        exact ⟨hj, lowers_congr (hlease j (by simpa using hne))⟩
      · obtain ⟨h1, _⟩ := hplain (fun r hr => by rw [hr'] at hr; cases hr; exact hk)
        rw [h1, hr'] at hr; cases hr
        exact ⟨r, rfl, rfl, rfl, fun j hj => ⟨hj, lowers_congr (hlease j (fun hjk => hk (hjk ▸ hj)))⟩, hentry⟩

theorem State.Counted.endLowerKept (h : s.Counted) (u d : Nat) : (s.endLowerKept k u d).Counted := by
  unfold State.endLowerKept
  split
  · exact h
  · exact (h.endLower _).alike (.of_eq _ _ rfl rfl rfl rfl rfl rfl)

theorem State.Counted.dropLease (h : s.Counted) : (s.dropLease k).Counted := by
  unfold State.dropLease
  split
  · exact h
  · rename_i l hl
    dsimp only
    split
    · exact (h.endLower _).congr rfl rfl rfl rfl rfl (fun _ e he => ⟨e, he, rfl⟩)
    · rename_i hlow
      have hn : ¬ s.Lowers k := by
        rw [lowering_iff]
        rintro ⟨l', hl', hlow'⟩
        rw [hl] at hl'; cases hl'
        exact hlow hlow'
      exact (h.setLease (l := none) (fun hx => absurd hx hn)).congr rfl rfl rfl rfl rfl (fun _ e he => ⟨e, he, rfl⟩)

/-! ### Time -/

theorem leaseOf_tick (j : Slot) : s.tick.leaseOf j = (s.leaseOf j).map Lease.tick := PerSlot.get_map _ _ _

theorem Lease.tick_fields (l : Lease) : l.tick.tier = l.tier ∧ l.tick.draw = l.draw ∧ l.tick.lowering = l.lowering ∧
    Transition.raiseDraw l.tick.trans = Transition.raiseDraw l.trans := by
  unfold Lease.tick
  split
  · rename_i hx
    unfold Lease.lowering
    rw [hx]; exact ⟨rfl, rfl, rfl, rfl⟩
  · exact ⟨rfl, rfl, rfl, rfl⟩

theorem commitment_tick : s.tick.commitment = s.commitment := by
  funext j
  unfold State.commitment
  rw [leaseOf_tick]
  show max (s.floorOf j) _ = _
  cases s.leaseOf j with
  | none => rfl
  | some l =>
    obtain ⟨_, hd, _, hr⟩ := l.tick_fields
    show max _ (max l.tick.draw (Transition.raiseDraw l.tick.trans)) = _
    rw [hd, hr]; rfl

theorem State.Counted.tick (h : s.Counted) : s.tick.Counted where
  committed := h.committed.congr rfl commitment_tick
  earmark := h.earmark.congr rfl rfl
  reclaim := by
    refine h.reclaim.mono fun r hr => ⟨r, hr, rfl, rfl, fun j hj => ⟨hj, fun hx => ?_⟩, fun e he => ⟨e, he, rfl⟩⟩
    obtain ⟨l, hl, hlow⟩ := lowering_iff.1 hx
    exact lowering_iff.2 ⟨l.tick, by rw [leaseOf_tick, hl]; rfl, by rw [l.tick_fields.2.2.1, hlow]⟩

/-! ### Entries and the reclaim -/

theorem leaseOf_removeEntry (j : Slot) : (s.removeEntry k).leaseOf j = s.leaseOf j := by
  obtain ⟨_, _, _, _, h, _⟩ := removeEntry_frame (s := s) (k := k)
  unfold State.leaseOf; rw [h]

theorem cmd_removeEntry : (s.removeEntry k).cmd = s.cmd := (onlyAt_removeEntry (s := s) (k := k)).host.2.1

theorem isBeneficiary_iff : s.isBeneficiary k = true ↔ ∃ r, s.alloc.reclaim = some r ∧ r.slot = k := by
  unfold State.isBeneficiary
  cases s.alloc.reclaim <;> simp

/-- The leaving of an entry abandons the reclaim that it is the beneficiary of, and touches no other (R63). -/
theorem removeEntry_reclaim_cases : (s.removeEntry k).alloc.reclaim = none ∧ (s.removeEntry k).alloc.earmark = 0 ∨
    s.ReclaimSame (s.removeEntry k) ∧ (s.entryOf k = none ∨ s.isBeneficiary k = false) := by
  obtain ⟨hsame, hgone⟩ := removeEntry_reclaim (s := s) (k := k)
  cases he : s.entryOf k with
  | none => exact .inr ⟨hsame (.inr he), .inl rfl⟩
  | some e =>
    cases hb : s.isBeneficiary k with
    | true => exact .inl (hgone (by rw [he]; rfl) hb)
    | false => exact .inr ⟨hsame (.inl hb), .inr rfl⟩

theorem State.Counted.removeEntry (h : s.Counted) : (s.removeEntry k).Counted := by
  obtain ⟨_, _, _, _, hl, hc⟩ := removeEntry_frame (s := s) (k := k)
  have hcommitted := h.committed.congr hc (commitment_congr (by rw [cmd_removeEntry]) hl)
  rcases removeEntry_reclaim_cases (s := s) (k := k) with ⟨hr, he⟩ | ⟨⟨hr, he⟩, hk⟩
  · exact ⟨hcommitted, by unfold State.EarmarkLaw; rw [hr]; exact he, .of_none hr⟩
  · refine ⟨hcommitted, h.earmark.congr hr he, h.reclaim.mono fun r hrt => ?_⟩
    rw [hr] at hrt
    refine ⟨r, hrt, rfl, rfl, fun j hj => ⟨hj, lowers_congr (leaseOf_removeEntry j)⟩, fun e hentry => ⟨e, ?_, rfl⟩⟩
    rw [entryOf_removeEntry_ne, hentry]
    rintro rfl
    rcases hk with hk | hk
    · rw [hentry] at hk; cases hk
    · rw [isBeneficiary_iff.2 ⟨r, hrt, rfl⟩] at hk; cases hk

/-! ### A grant -/

theorem find?_bumpAhead (q : List Entry) (j : Slot) :
    ((s.bumpAhead k q).find? (fun e => e.slot == j)).map Entry.claim = (q.find? (fun e => e.slot == j)).map Entry.claim := by
  induction q with
  | nil => rfl
  | cons e es ih =>
    unfold State.bumpAhead
    split
    · rfl
    · by_cases hj : e.slot = j
      · split_ifs <;> simp [hj, Entry.claim]
      · have hb : (e.slot == j) = false := by simpa using hj
        split_ifs <;> simpa [List.find?_cons, hb] using ih

/-- The lease of a grant is made after its entry has left (R40, R61): a RAISE where slot `k` has a lease, else a new lease. -/
def State.letGrant (k : Slot) (n : Nat) (g : EntryOrigin) (short : Bool) (s : State) : State :=
  match s.leaseOf k with
  | some l => s.createRaise k l n g short
  | none => s.createLease k n short

theorem letGrant_some {l : Lease} (h : s.leaseOf k = some l) (n : Nat) (g : EntryOrigin) (b : Bool) :
    s.letGrant k n g b = s.createRaise k l n g b := by unfold State.letGrant; rw [h]

theorem letGrant_none (h : s.leaseOf k = none) (n : Nat) (g : EntryOrigin) (b : Bool) :
    s.letGrant k n g b = s.createLease k n b := by unfold State.letGrant; rw [h]

/-- What the making of a grant's lease leaves alone. -/
theorem letGrant_frame {n : Nat} {g : EntryOrigin} {b : Bool} : (s.letGrant k n g b).alloc.earmark = s.alloc.earmark ∧
    (s.letGrant k n g b).alloc.reclaim = s.alloc.reclaim ∧ (s.letGrant k n g b).alloc.state = s.alloc.state ∧
    (s.letGrant k n g b).alloc.queue = s.alloc.queue ∧ (s.letGrant k n g b).cmd = s.cmd ∧
    (s.letGrant k n g b).store = s.store := by
  unfold State.letGrant
  split <;> exact ⟨rfl, rfl, rfl, rfl, rfl, rfl⟩

/-- What the making of a grant's lease looks at. -/
theorem letGrant_congr {u v : State} (hs : v.sess = u.sess) (hp : v.power = u.power) (hc : v.cmd = u.cmd)
    (hl : v.alloc.leases = u.alloc.leases) (hm : v.alloc.committed = u.alloc.committed) (n : Nat) (g : EntryOrigin) (b : Bool) :
    (v.letGrant k n g b).sess = (u.letGrant k n g b).sess ∧ (v.letGrant k n g b).power = (u.letGrant k n g b).power ∧
    (v.letGrant k n g b).alloc.leases = (u.letGrant k n g b).alloc.leases ∧
    (v.letGrant k n g b).alloc.committed = (u.letGrant k n g b).alloc.committed := by
  obtain ⟨_, _, ⟨_, _, _, _, _, _, _, _⟩, _, _, _, _, _, _, _, _, _⟩ := u
  obtain ⟨_, _, ⟨_, _, _, _, _, _, _, _⟩, _, _, _, _, _, _, _, _, _⟩ := v
  dsimp only at hs hp hc hl hm
  subst hs hp hc hl hm
  unfold State.letGrant State.leaseOf
  dsimp only
  split <;> exact ⟨rfl, rfl, rfl, rfl⟩

/-- The queue of a grant, the pass counts ahead risen (R41), and its entry gone. -/
def State.ungranted (k : Slot) (s : State) : State := (s.withQueue (s.bumpAhead k s.alloc.queue)).unqueue k

theorem entryOf_ungranted (j : Slot) : ((s.ungranted k).entryOf j).map Entry.claim = ((s.unqueue k).entryOf j).map Entry.claim := by
  by_cases hj : j = k
  · subst hj; unfold State.ungranted; rw [entryOf_unqueue_self, entryOf_unqueue_self]
  · unfold State.entryOf State.ungranted State.unqueue
    show (List.find? _ (List.filter _ (s.bumpAhead k s.alloc.queue))).map _ = (List.find? _ (List.filter _ s.alloc.queue)).map _
    rw [find?_filter_ne hj, find?_filter_ne hj]
    exact find?_bumpAhead _ _

/-- A grant, with the lease made on the queue that its entry has left. -/
theorem grant_eq {e : Entry} {n : Nat} : s.grant e n =
    let u := ((s.ungranted e.slot).letGrant e.slot n e.origin (decide (n < e.wanted))).postGranted e.slot e.origin.reason
      (decide (n < e.wanted)) n
    if s.isBeneficiary e.slot = true then
      ((u.withReclaim none 0).wantPass (decide (u.commitment e.slot - s.commitment e.slot < s.alloc.earmark))).post .reclaimEnd
        (some e.slot) .preempt 1
    else u := by
  have hl : (s.ungranted e.slot).leaseOf e.slot = s.leaseOf e.slot := rfl
  unfold State.grant State.letGrant
  rw [hl]
  dsimp only
  cases s.leaseOf e.slot <;> rfl

/-- A grant is the leaving of its entry, which ends the reclaim it is the beneficiary of, and then the lease (R40, R61). -/
theorem grant_alike {e : Entry} {n : Nat} (he : s.entryOf e.slot = some e) :
    ((s.removeEntry e.slot).letGrant e.slot n e.origin (decide (n < e.wanted))).Alike (s.grant e n) := by
  obtain ⟨hsess, _, hpower, _, hleases, hcommitted⟩ := removeEntry_frame (s := s) (k := e.slot)
  obtain ⟨f1, f2, f3, f4, f5, f6⟩ := letGrant_frame (s := s.removeEntry e.slot) (k := e.slot) (n := n) (g := e.origin)
    (b := decide (n < e.wanted))
  obtain ⟨g1, g2, g3, g4, g5, g6⟩ := letGrant_frame (s := s.ungranted e.slot) (k := e.slot) (n := n) (g := e.origin)
    (b := decide (n < e.wanted))
  obtain ⟨c1, c2, c3, c4⟩ := letGrant_congr (k := e.slot) (u := s.removeEntry e.slot) (v := s.ungranted e.slot) hsess.symm
    hpower.symm (cmd_removeEntry (s := s) (k := e.slot)).symm hleases.symm hcommitted.symm n e.origin (decide (n < e.wanted))
  have hqueue : (s.removeEntry e.slot).alloc.queue = (s.unqueue e.slot).alloc.queue ∧
      (s.removeEntry e.slot).store = s.store := by
    unfold State.removeEntry; rw [he]; dsimp only; split
    · obtain ⟨_, _, _, _, _, _, hq⟩ := endReclaim_frame (s := (s.unqueue e.slot).wantPass true) (n := 2)
      exact ⟨hq, (onlyAt_endReclaim (k := e.slot) (s := (s.unqueue e.slot).wantPass true)).host.2.2.1⟩
    · exact ⟨rfl, rfl⟩
  have hmode : (s.removeEntry e.slot).alloc.state = s.alloc.state := (onlyAt_removeEntry (s := s) (k := e.slot)).state
  have hbase : ∀ u : State, u.alloc.reclaim = (s.removeEntry e.slot).alloc.reclaim →
      u.alloc.earmark = (s.removeEntry e.slot).alloc.earmark →
      u.alloc.committed = ((s.ungranted e.slot).letGrant e.slot n e.origin (decide (n < e.wanted))).alloc.committed →
      u.alloc.leases = ((s.ungranted e.slot).letGrant e.slot n e.origin (decide (n < e.wanted))).alloc.leases →
      u.alloc.queue = (s.ungranted e.slot).alloc.queue → u.alloc.state = s.alloc.state → u.cmd = s.cmd → u.store = s.store →
      u.sess = ((s.ungranted e.slot).letGrant e.slot n e.origin (decide (n < e.wanted))).sess →
      u.power = ((s.ungranted e.slot).letGrant e.slot n e.origin (decide (n < e.wanted))).power →
      ((s.removeEntry e.slot).letGrant e.slot n e.origin (decide (n < e.wanted))).Alike u := by
    intro u h1 h2 h3 h4 h5 h6 h7 h8 h9 h10
    refine ⟨h3.trans c4, h2.trans f1.symm, h4.trans c3, h6.trans (f3.trans hmode).symm, h1.trans f2.symm, fun j => ?_, ?_, ?_,
      fun j => ?_, fun j => ?_, ?_, ?_, ?_⟩
    · have hu : u.entryOf j = (s.ungranted e.slot).entryOf j := entryOf_eq_of_queue h5
      have hv : ((s.removeEntry e.slot).letGrant e.slot n e.origin (decide (n < e.wanted))).entryOf j =
          (s.unqueue e.slot).entryOf j := entryOf_eq_of_queue (f4.trans hqueue.1)
      rw [hu, hv]; exact entryOf_ungranted j
    · rw [h7, f5, cmd_removeEntry]
    · unfold State.available State.settings; rw [h7, f5, cmd_removeEntry]
    · unfold State.sessOf; rw [h9, c1]
    · unfold State.rampOf; rw [h10, c2]
    · rw [h10, c2]
    · rw [h10, c2]
    · rw [h8, f6, hqueue.2]
  obtain ⟨hsame, hgone⟩ := removeEntry_reclaim (s := s) (k := e.slot)
  rw [grant_eq]
  dsimp only
  split
  · rename_i hb
    obtain ⟨hr, hm⟩ := hgone (by rw [he]; rfl) hb
    exact hbase _ hr.symm hm.symm rfl rfl g4 g3 g5 g6 rfl rfl
  · rename_i hb
    obtain ⟨hr, hm⟩ := hsame (.inl (by simpa using hb))
    exact hbase _ (g2.trans hr.symm) (g1.trans hm.symm) rfl rfl g4 g3 g5 g6 rfl rfl

/-- A slot whose entry may be granted has no LOWER in flight (R38). -/
theorem not_lowers_of_eligible (h : s.eligible k = true) : ¬ s.Lowers k := by
  rw [lowering_iff]
  rintro ⟨l, hl, hlow⟩
  unfold State.eligible State.lowering at h
  rw [hl] at h
  simp [hlow] at h

theorem eligible_trans {l : Lease} (h : s.eligible k = true) (hl : s.leaseOf k = some l) : l.trans = none := by
  unfold State.eligible State.lowering State.raising at h
  rw [hl] at h
  cases hx : l.trans with
  | none => rfl
  | some x => cases x <;> simp [Lease.lowering, hx] at h

theorem State.Counted.letGrant {n : Nat} {g : EntryOrigin} {b : Bool} (h : s.Counted) (hk : ¬ s.Lowers k) :
    (s.letGrant k n g b).Counted := by
  unfold State.letGrant
  split
  · exact (h.setLease (fun hx => absurd hx hk)).congr_alloc rfl rfl
  · exact (h.setLease (fun hx => absurd hx hk)).congr_alloc rfl rfl

/-! ### Every deed -/

theorem deed_keeps_counted {o o' : Owed} (h : Deed o s o' t) (hs : s.Counted) : t.Counted := by
  cases h with
  | frame h => exact hs.alike h
  | turn h =>
    obtain ⟨ha, hc, _⟩ := h.same
    exact hs.congr_alloc ha (by rw [hc])
  | mode | limits | tested => exact ⟨hs.committed, hs.earmark, hs.reclaim⟩
  | policy k r _ =>
    refine ⟨hs.committed.update (k := k) (fun j hj => ?_) rfl, hs.earmark.congr rfl rfl, hs.reclaim⟩
    rw [commitment_setPolicy, if_neg hj]
  | drop k _ => exact hs.dropLease
  | relet k l l' hl hv _ =>
    refine hs.setLease fun hx => lowering_iff.2 ⟨l', by rw [State.leaseOf_setLease, if_pos rfl], hv ?_⟩
    obtain ⟨l'', hl'', hlow⟩ := lowering_iff.1 hx
    rw [hl] at hl''; cases hl''; exact hlow
  | kept k u d l _ _ _ => exact hs.endLowerKept u d
  | tick => exact hs.tick
  | grant e he hel _ _ =>
    exact ((hs.removeEntry (k := e.slot)).letGrant fun hx =>
      not_lowers_of_eligible hel (lowers_congr (leaseOf_removeEntry _).symm hx)).alike (grant_alike he)
  | leave k => exact hs.removeEntry
  | join e he _ _ _ =>
    refine hs.congr rfl rfl rfl rfl rfl fun j x hx => ⟨x, ?_, rfl⟩
    rw [entryOf_joinEntry he, if_neg, hx]
    rintro rfl
    rw [he] at hx; cases hx
  | retier k g w l _ =>
    refine hs.congr rfl rfl rfl rfl rfl fun j x hx => ⟨_, by rw [entryOf_retier, hx]; rfl, ?_⟩
    split <;> rfl
  | abandon => exact ⟨hs.committed, rfl, .of_none rfl⟩
  | begin r h _ hr he hv =>
    have hold := hs.earmark
    unfold State.EarmarkLaw at hold
    rw [h] at hold
    have hold : s.alloc.earmark = 0 := hold
    refine ⟨hs.committed, ⟨?_, hr⟩, ?_⟩
    · show s.alloc.earmark ≤ r.shortfall
      omega
    · intro r' hr'
      cases hr'
      exact ⟨he, hv⟩
  | shrink r n h hn =>
    refine ⟨hs.committed, ⟨Nat.min_le_right _ _, hn⟩, hs.reclaim.mono fun r' hr' => ?_⟩
    cases hr'
    exact ⟨r, h, rfl, rfl, fun j hj => ⟨hj, id⟩, fun e he => ⟨e, he, rfl⟩⟩

end Sys2Proof.Machine
end

section
/-! PROOFS. Lease, gate, aux rail, ramp record, Ramp Queue, ramp resource and entry of every slot agree with its session: every deed keeps
it, but for the slots whose session is still to settle (R9, R23, R36, R74, R116 to R118). -/

namespace Sys2Proof.Machine

variable {s t : State} {k : Slot} {B C : Finset Slot}

/-! ### The Ramp Queue -/

theorem rampInsert_perm (cls : Slot → PowerClass) (k : Slot) (c : PowerClass) (q : List Slot) :
    (rampInsert cls k c q).Perm (k :: q) := by
  induction q with
  | nil => exact List.Perm.refl _
  | cons j js ih =>
    unfold rampInsert; split
    · exact List.Perm.refl _
    · exact (ih.cons j).trans (List.Perm.swap k j js)

theorem mem_rampInsert {cls : Slot → PowerClass} {c : PowerClass} {q : List Slot} {j : Slot} :
    j ∈ rampInsert cls k c q ↔ j = k ∨ j ∈ q := by
  rw [(rampInsert_perm cls k c q).mem_iff, List.mem_cons]

theorem nodup_rampInsert {cls : Slot → PowerClass} {c : PowerClass} {q : List Slot} (h : q.Nodup) (hk : k ∉ q) :
    (rampInsert cls k c q).Nodup :=
  (rampInsert_perm cls k c q).nodup_iff.2 (List.nodup_cons.2 ⟨hk, h⟩)

theorem PowerClass.eq_of_ne_essential {c : PowerClass} (h : c ≠ .essential) : c = .deferrable := by
  cases c with
  | deferrable => rfl
  | essential => exact absurd rfl h

theorem classOrdered_rampInsert {cls : Slot → PowerClass} {q : List Slot} (h : ClassOrdered cls q) :
    ClassOrdered cls (rampInsert cls k (cls k) q) := by
  induction q with
  | nil => exact List.pairwise_singleton _ _
  | cons j js ih =>
    unfold rampInsert; split
    · rename_i hc
      exact List.pairwise_cons.2 ⟨fun i _ hk => (by rw [hc.1] at hk; cases hk), h⟩
    · rename_i hc
      refine List.pairwise_cons.2 ⟨fun i hi hj => ?_, ih (List.Pairwise.of_cons h)⟩
      rcases mem_rampInsert.1 hi with rfl | hi
      · exact PowerClass.eq_of_ne_essential (fun he => hc ⟨he, hj⟩)
      · exact (List.pairwise_cons.1 h).1 i hi hj

theorem ClassOrdered.congr {cls cls' : Slot → PowerClass} {q : List Slot} (h : ClassOrdered cls q) (hc : ∀ j ∈ q, cls' j = cls j) :
    ClassOrdered cls' q :=
  List.Pairwise.imp_of_mem (fun hi hj hr => by rw [hc _ hi, hc _ hj]; exact hr) h

theorem mem_filter_ne {q : List Slot} {j : Slot} : j ∈ q.filter (fun i => i != k) ↔ j ∈ q ∧ j ≠ k := by
  rw [List.mem_filter]; simp

/-! ### One slot, all slots -/

theorem Session.phase_eq {x y : Session} (h : x.phase = y.phase) : x.state = y.state ∧ x.admitFlag = y.admitFlag ∧ x.desc = y.desc := by
  simpa [Session.phase] using h

theorem Ramp.phase_eq {x y : Ramp} (h : x.phase = y.phase) : x.state = y.state ∧ x.gate = y.gate ∧ x.aux = y.aux ∧ x.cls = y.cls := by
  simpa [Ramp.phase] using h

theorem State.SlotLawBut.congr (h : s.SlotLawBut B k) (hB : k ∈ C ↔ k ∈ B) (hl : (t.leaseOf k).isSome = (s.leaseOf k).isSome)
    (hs : (t.sessOf k).phase = (s.sessOf k).phase) (hr : (t.rampOf k).phase = (s.rampOf k).phase)
    (hq : k ∈ t.power.queue ↔ k ∈ s.power.queue) (hh : t.power.holder = some k ↔ s.power.holder = some k)
    (he : (t.entryOf k).isSome = true → (s.entryOf k).isSome = true) : t.SlotLawBut C k := by
  obtain ⟨hstate, hadmit, _⟩ := Session.phase_eq hs
  obtain ⟨hramp, hgate, haux, _⟩ := Ramp.phase_eq hr
  have hnone : t.leaseOf k = none ↔ s.leaseOf k = none := by
    rw [← Option.isNone_iff_eq_none, ← Option.isNone_iff_eq_none, ← Option.not_isSome, ← Option.not_isSome, hl]
  obtain ⟨h1, h2, h3, h4, h5, h6⟩ := h
  constructor
  · rw [hB, hl, hstate, hgate, hramp]; exact h1
  · rw [hB, hnone, hstate, hgate, hramp]; exact h2
  · rw [haux, hstate]; exact h3
  · rw [hq, hramp]; exact h4
  · rw [hh, hramp]; exact h5
  · rw [hstate, hadmit]; exact fun hx => h6 (he hx)

/-- Every slot as it stood, for what the law looks at. -/
theorem State.CoherentBut.congr (h : s.CoherentBut B) (hl : ∀ j, (t.leaseOf j).isSome = (s.leaseOf j).isSome)
    (hs : ∀ j, (t.sessOf j).phase = (s.sessOf j).phase) (hr : ∀ j, (t.rampOf j).phase = (s.rampOf j).phase)
    (hq : t.power.queue = s.power.queue) (hh : t.power.holder = s.power.holder)
    (he : ∀ j, (t.entryOf j).isSome = true → (s.entryOf j).isSome = true) : t.CoherentBut B where
  slot j := (h.slot j).congr Iff.rfl (hl j) (hs j) (hr j) (by rw [hq]) (by rw [hh]) (he j)
  nodup := by rw [hq]; exact h.nodup
  ordered := by rw [hq]; exact h.ordered.congr fun j _ => (Ramp.phase_eq (hr j)).2.2.2

/-- Sessions and path as they were. -/
theorem State.CoherentBut.congr_alloc (h : s.CoherentBut B) (hl : ∀ j, (t.leaseOf j).isSome = (s.leaseOf j).isSome)
    (hs : t.sess = s.sess) (hp : t.power = s.power) (he : ∀ j, (t.entryOf j).isSome = true → (s.entryOf j).isSome = true) :
    t.CoherentBut B :=
  h.congr hl (fun j => by unfold State.sessOf; rw [hs]) (fun j => by unfold State.rampOf; rw [hp]) (by rw [hp]) (by rw [hp]) he

/-- Every slot but `k` as it stood. -/
theorem State.CoherentBut.change (h : s.CoherentBut B) (k : Slot) (ho : s.OthersSame t k) (hB : ∀ j, j ≠ k → (j ∈ C ↔ j ∈ B))
    (hq : ∀ j, j ≠ k → (j ∈ t.power.queue ↔ j ∈ s.power.queue))
    (hh : ∀ j, j ≠ k → (t.power.holder = some j ↔ s.power.holder = some j)) (hk : t.SlotLawBut C k) (hn : t.power.queue.Nodup)
    (hord : ClassOrdered (fun j => (t.rampOf j).cls) t.power.queue) : t.CoherentBut C where
  slot j := by
    by_cases hj : j = k
    · subst hj; exact hk
    · obtain ⟨hs, hl, _, hr, _, he⟩ := ho j hj
      exact (h.slot j).congr (hB j hj) (by rw [hl]) (by rw [hs]) (by rw [hr]) (hq j hj) (hh j hj) (by rw [he]; exact id)
  nodup := hn
  ordered := hord

theorem State.CoherentBut.alike (h : s.CoherentBut B) (ha : s.Alike t) : t.CoherentBut B :=
  h.congr (fun j => by rw [ha.leaseOf]) ha.sess ha.ramp ha.queue ha.holder fun j hj => by
    obtain ⟨e, he⟩ := Option.isSome_iff_exists.1 hj
    obtain ⟨x, hx, _⟩ := ha.entry_some j he
    rw [hx]; rfl

/-! ### What the session state tells of the slot -/

theorem SessState.not_leased_of_closed {st : SessState} (h : st.isOpen = false) : st.leased = false := by
  cases st <;> first | rfl | cases h

theorem SessState.open_of_leased {st : SessState} (h : st.leased = true) : st.isOpen = true := by
  cases st <;> first | rfl | cases h

theorem SessState.off_of_not_leased {st : SessState} (h : st.leased = false) :
    st.gateOn = false ∧ ∀ r, st.rampOk r = true → r = .none := by
  cases st <;> cases h <;> exact ⟨rfl, fun r hr => of_decide_eq_true hr⟩

theorem SessState.rampOk_none {st : SessState} (h : st.leased = false) : st.rampOk .none = true := by
  cases st <;> cases h <;> rfl

theorem SessState.rampWait_of_waiting {st : SessState} {r : RampState} (h : st.rampOk r = true) (hr : r = .queued ∨ r = .backoff) :
    st = .rampWait := by
  rcases hr with rfl | rfl <;> cases st <;> first | rfl | cases h

theorem SessState.ramping_of_ramping {st : SessState} (h : st.rampOk .ramping = true) : st = .ramping := by
  cases st <;> first | rfl | cases h

namespace State.CoherentBut

variable (h : s.CoherentBut B)
include h

/-- A slot that has a lease has settled, and its session is leased. -/
theorem of_lease (hl : (s.leaseOf k).isSome = true) : k ∉ B ∧ (s.sessOf k).state.leased = true := by
  have hB : k ∉ B := fun hk => by
    obtain ⟨hn, _⟩ := (h.slot k).unsettled hk
    rw [hn] at hl; cases hl
  exact ⟨hB, ((h.slot k).settled hB).1.symm.trans hl⟩

/-- A slot without a lease whose session is not leased has its path off. -/
theorem off (hl : (s.sessOf k).state.leased = false) :
    k ∉ B ∧ s.leaseOf k = none ∧ (s.rampOf k).gate = false ∧ (s.rampOf k).state = .none := by
  have hB : k ∉ B := fun hk => by
    obtain ⟨_, hx, _⟩ := (h.slot k).unsettled hk
    rw [hl] at hx; cases hx
  obtain ⟨h1, h2, h3⟩ := (h.slot k).settled hB
  obtain ⟨hg, hr⟩ := SessState.off_of_not_leased hl
  exact ⟨hB, by rw [hl] at h1; simpa using h1, h2.trans hg, hr _ h3⟩

/-- What a slot whose session closes has of lease, path and entry. -/
theorem closing (hc : (s.sessOf k).state.isOpen = false ∨
    s.entryOf k = none ∧ (k ∈ B ∨ s.leaseOf k = none ∨ (s.sessOf k).state = .standby)) :
    s.leaseOf k = none ∧ (s.rampOf k).gate = false ∧ (s.rampOf k).state = .none ∧ s.entryOf k = none := by
  rcases hc with hc | ⟨he, hc⟩
  · obtain ⟨_, h1, h2, h3⟩ := h.off (SessState.not_leased_of_closed hc)
    refine ⟨h1, h2, h3, ?_⟩
    by_contra hn
    rcases (h.slot k).entry (Option.isSome_iff_ne_none.2 hn) with hs | ⟨hs, _⟩ <;> rw [hs] at hc <;> cases hc
  · by_cases hB : k ∈ B
    · obtain ⟨h1, _, h2, h3⟩ := (h.slot k).unsettled hB
      exact ⟨h1, h2, h3, he⟩
    · have hl : (s.sessOf k).state.leased = false := by
        rcases hc with hc | hc | hc
        · exact absurd hc hB
        · rw [← ((h.slot k).settled hB).1, hc]; rfl
        · rw [hc]; rfl
      obtain ⟨_, h1, h2, h3⟩ := h.off hl
      exact ⟨h1, h2, h3, he⟩

/-- A slot that waits in RAMP_WAIT or ramps has settled and has a lease, and no entry. -/
theorem of_ramp (hr : (s.rampOf k).state ≠ .none) :
    k ∉ B ∧ (s.sessOf k).state.rampOk (s.rampOf k).state = true ∧ (s.leaseOf k).isSome = (s.sessOf k).state.leased := by
  have hB : k ∉ B := fun hk => by
    obtain ⟨_, _, _, hx⟩ := (h.slot k).unsettled hk
    exact hr hx
  exact ⟨hB, ((h.slot k).settled hB).2.2, ((h.slot k).settled hB).1⟩

end State.CoherentBut

/-! ### Sessions -/

/-- The session of slot `k` moves to a state without a lease: the slot's path is off already. -/
theorem State.CoherentBut.enter (h : s.CoherentBut B) (f : Session → Session) {st : SessState} (hst : st.leased = false)
    (hoff : s.leaseOf k = none ∧ (s.rampOf k).gate = false ∧ (s.rampOf k).state = .none)
    (he : (s.entryOf k).isSome = true → st = .standby ∧ (f (s.sessOf k)).admitFlag = true) :
    ((s.modSess k f).enter k st).CoherentBut (B.erase k) := by
  obtain ⟨hlease, hgate, hramp⟩ := hoff
  have hsess : ((s.modSess k f).enter k st).sessOf k = { f (s.sessOf k) with state := st } := by
    rw [sessOf_enter, State.sessOf_modSess, if_pos rfl]
  have hr : ((s.modSess k f).enter k st).rampOf k = { s.rampOf k with aux := st.auxOn } := rampOf_enter
  have hrj : ∀ j, (((s.modSess k f).enter k st).rampOf j).cls = (s.rampOf j).cls := by
    intro j
    by_cases hj : j = k
    · subst hj; rw [hr]
    · rw [((onlyAt_modSess.trans onlyAt_enter).others j hj).2.2.2.1]
  obtain ⟨_, _, _, hqueued, hholds, _⟩ := h.slot k
  refine h.change k (onlyAt_modSess.trans onlyAt_enter).others (fun j hj => by simp [hj]) (fun _ _ => Iff.rfl) (fun _ _ => Iff.rfl)
    ⟨fun _ => ?_, fun hk => absurd rfl (Finset.ne_of_mem_erase hk), ?_, ?_, ?_, ?_⟩ h.nodup (h.ordered.congr fun j _ => hrj j)
  · rw [hsess, hr, hst]
    refine ⟨?_, hgate.trans (SessState.off_of_not_leased hst).1.symm, ?_⟩
    · show (s.leaseOf k).isSome = false; rw [hlease]; rfl
    · show st.rampOk (s.rampOf k).state = true; rw [hramp]; exact SessState.rampOk_none hst
  · rw [hsess, hr]
  · rw [hr]; exact hqueued
  · rw [hr]; exact hholds
  · rw [hsess]; exact fun hx => .inr (he hx)

theorem modSess_id : s.modSess k id = s := by
  have : s.sess.set k (id (s.sess.get k)) = s.sess := by
    apply PerSlot.ext_get; intro j; rw [PerSlot.get_set]; split <;> simp_all
  unfold State.modSess; rw [this]

/-! ### The path -/

theorem sessOf_startRamp (j : Slot) :
    (s.startRamp k).sessOf j = if j = k then { s.sessOf k with state := .ramping } else s.sessOf j := PerSlot.get_set _ _ _ _

theorem rampOf_startRamp (j : Slot) : (s.startRamp k).rampOf j =
    if j = k then { s.rampOf k with state := .ramping, gate := true, timer := s.settings.rampTimeout } else s.rampOf j :=
  PerSlot.get_set _ _ _ _

theorem State.CoherentBut.startRamp (h : s.CoherentBut B) (hh : s.power.holder = none) (hq : k ∈ s.power.queue) :
    (s.startRamp k).CoherentBut B := by
  have hqueued := (h.slot k).queued.1 hq
  obtain ⟨hB, hok, hlease⟩ := h.of_ramp (k := k) (by rw [hqueued]; decide)
  have hwait := SessState.rampWait_of_waiting hok (.inl hqueued)
  have hsess : (s.startRamp k).sessOf k = { s.sessOf k with state := .ramping } := by rw [sessOf_startRamp, if_pos rfl]
  have hramp : (s.startRamp k).rampOf k =
      { s.rampOf k with state := .ramping, gate := true, timer := s.settings.rampTimeout } := by rw [rampOf_startRamp, if_pos rfl]
  have hmem : ∀ j, j ∈ (s.startRamp k).power.queue ↔ j ∈ s.power.queue ∧ j ≠ k := fun j => mem_filter_ne
  have hhold : (s.startRamp k).power.holder = some k := rfl
  refine h.change k (fun j hj => ⟨?_, rfl, rfl, ?_, PerSlot.get_set_ne _ _ hj, rfl⟩) (fun _ _ => Iff.rfl) (fun j hj => ?_) (fun j hj => ?_)
    ⟨fun _ => ?_, fun hk => absurd hk hB, ?_, ?_, ?_, ?_⟩ (h.nodup.filter _) ?_
  · rw [sessOf_startRamp, if_neg hj]
  · rw [rampOf_startRamp, if_neg hj]
  · rw [hmem]; exact and_iff_left hj
  · rw [hhold, hh]; exact ⟨fun hx => absurd (Option.some.inj hx).symm hj, fun hx => by cases hx⟩
  · rw [hsess, hramp]
    refine ⟨?_, rfl, rfl⟩
    show (s.leaseOf k).isSome = _; rw [hlease, hwait]; rfl
  · rw [hsess, hramp]
    show (s.rampOf k).aux = _
    rw [(h.slot k).aux, hwait]; rfl
  · rw [hmem, hramp]; exact ⟨fun hx => absurd rfl hx.2, fun hx => by cases hx⟩
  · rw [hhold, hramp]; exact ⟨fun _ => rfl, fun _ => rfl⟩
  · intro hx
    rcases (h.slot k).entry hx with hs | ⟨hs, _⟩ <;> rw [hwait] at hs <;> cases hs
  · refine ClassOrdered.congr (List.Pairwise.sublist List.filter_sublist h.ordered) fun j hj => ?_
    rw [rampOf_startRamp, if_neg ((hmem j).1 hj).2]

/-- Slot `k`, RAMPING, gives up the ramp resource and its session moves to `st` (R120, R121). -/
theorem State.CoherentBut.endRamp (h : s.CoherentBut B) (hr : (s.rampOf k).state = .ramping) (st : SessState) (r : Ramp)
    (ho : s.OthersSame t k) (hs : (t.sessOf k).state = st) (htr : t.rampOf k = r) (hl : t.leaseOf k = s.leaseOf k)
    (he : t.entryOf k = s.entryOf k) (hq : t.power.queue = s.power.queue)
    (hh : t.power.holder = if s.power.holder = some k then none else s.power.holder)
    (haux : r.aux = (s.rampOf k).aux) (hst : st.leased = true ∧ st.auxOn = true ∧ st.gateOn = r.gate ∧ st.rampOk r.state = true)
    (hrs : r.state = .none ∨ r.state = .backoff) : t.CoherentBut B := by
  obtain ⟨hB, hok, hlease⟩ := h.of_ramp (k := k) (by rw [hr]; decide)
  rw [hr] at hok
  have hsess := SessState.ramping_of_ramping hok
  have hhold : s.power.holder = some k := (h.slot k).holds.2 hr
  rw [if_pos hhold] at hh
  have hnq : k ∉ s.power.queue := fun hx => by
    have := (h.slot k).queued.1 hx
    rw [hr] at this; cases this
  refine h.change k ho (fun _ _ => Iff.rfl) (fun _ _ => by rw [hq]) (fun j hj => ?_) ⟨fun _ => ?_, fun hk => absurd hk hB, ?_, ?_, ?_, ?_⟩
    (by rw [hq]; exact h.nodup) ?_
  · rw [hh, hhold]; exact ⟨fun hx => (nomatch hx), fun hx => absurd (Option.some.inj hx).symm hj⟩
  · rw [hs, htr, hl, hlease, hsess, hst.1]; exact ⟨rfl, hst.2.2.1.symm, hst.2.2.2⟩
  · rw [htr, hs, haux, (h.slot k).aux, hsess, hst.2.1]; rfl
  · rw [hq, htr]; exact ⟨fun hx => absurd hx hnq, fun hx => by rw [hx] at hrs; simp at hrs⟩
  · rw [hh, htr]; exact ⟨fun hx => (nomatch hx), fun hx => by rw [hx] at hrs; simp at hrs⟩
  · rw [he]
    intro hx
    rcases (h.slot k).entry hx with hx | ⟨hx, _⟩ <;> rw [hsess] at hx <;> cases hx
  · rw [hq]
    refine h.ordered.congr fun j hj => ?_
    by_cases hjk : j = k
    · exact absurd (hjk ▸ hj) hnq
    · rw [(ho j hjk).2.2.2.1]

/-- What the end of a ramp with success leaves of session and path (R120). -/
theorem completeRamp_parts : (s.completeRamp k).sess = s.sess.set k { s.sessOf k with state := .on } ∧
    (s.completeRamp k).power = { s.power with
      slots := s.power.slots.set k { s.rampOf k with state := .none, tag := 0, retry := 0, timer := 0 }
      holder := if s.power.holder = some k then none else s.power.holder } := by
  unfold State.completeRamp State.queueRampGrant; split <;> exact ⟨rfl, rfl⟩

theorem onlyAt_completeRamp_others : s.OthersSame (s.completeRamp k) k := by
  intro j hj
  obtain ⟨hs, hp⟩ := completeRamp_parts (s := s) (k := k)
  have ha := (completeRamp_same s k).1
  refine ⟨?_, by unfold State.leaseOf; rw [ha], ?_, ?_, ?_, entryOf_eq_of_queue (by rw [ha])⟩
  · unfold State.sessOf; rw [hs]; exact PerSlot.get_set_ne _ _ hj
  · unfold State.completeRamp State.queueRampGrant
    split
    · rfl
    · rw [State.lineOf_modLine, if_neg hj]; rfl
  · unfold State.rampOf; rw [hp]; exact PerSlot.get_set_ne _ _ hj
  · unfold State.completeRamp State.queueRampGrant; split <;> exact PerSlot.get_set_ne _ _ hj

theorem State.CoherentBut.completeRamp (h : s.CoherentBut B) (hr : (s.rampOf k).state = .ramping) :
    (s.completeRamp k).CoherentBut B := by
  obtain ⟨hs, hp⟩ := completeRamp_parts (s := s) (k := k)
  have ha := (completeRamp_same s k).1
  have hok := (h.of_ramp (k := k) (by rw [hr]; decide)).2.1
  rw [hr] at hok
  have hgate : (s.rampOf k).gate = true := by
    obtain ⟨hB, _⟩ := h.of_ramp (k := k) (by rw [hr]; decide)
    rw [((h.slot k).settled hB).2.1, SessState.ramping_of_ramping hok]; rfl
  refine h.endRamp hr .on { s.rampOf k with state := .none, tag := 0, retry := 0, timer := 0 } onlyAt_completeRamp_others ?_ ?_
    (by unfold State.leaseOf; rw [ha]) (entryOf_eq_of_queue (by rw [ha])) (by rw [hp]) (by rw [hp]) rfl
    ⟨rfl, rfl, hgate.symm, rfl⟩ (.inl rfl)
  · unfold State.sessOf; rw [hs, PerSlot.get_set_self]
  · unfold State.rampOf; rw [hp]; exact PerSlot.get_set_self _ _ _

theorem State.CoherentBut.backOff (h : s.CoherentBut B) (hr : (s.rampOf k).state = .ramping) : (s.backOff k).CoherentBut B := by
  refine h.endRamp hr .rampWait { s.rampOf k with state := .backoff, gate := false, retry := (s.rampOf k).retry + 1, timer := backoffTime }
    (fun j hj => ⟨PerSlot.get_set_ne _ _ hj, rfl, rfl, PerSlot.get_set_ne _ _ hj, PerSlot.get_set_ne _ _ hj, rfl⟩) ?_
    (PerSlot.get_set_self _ _ _) rfl rfl rfl rfl rfl ⟨rfl, rfl, rfl, rfl⟩ (.inr rfl)
  show ((s.sess.set k { s.sessOf k with state := .rampWait }).get k).state = _
  rw [PerSlot.get_set_self]

theorem rampOf_joinRamp (j : Slot) :
    (s.joinRamp k).rampOf j = if j = k then { s.rampOf k with state := .queued, timer := 0 } else s.rampOf j := PerSlot.get_set _ _ _ _

theorem filter_ne_of_notMem {q : List Slot} (h : k ∉ q) : q.filter (fun i => i != k) = q :=
  List.filter_eq_self.2 fun j hj => by
    rw [bne_iff_ne]
    rintro rfl
    exact h hj

/-- Slot `k` takes a place in the Ramp Queue, in RAMP_WAIT and by the class its record has then (R117). -/
theorem State.CoherentBut.place (h : s.CoherentBut B) (hB : k ∉ B) (hr : (s.rampOf k).state ≠ .ramping) (ho : s.OthersSame t k)
    (hq : t.power.queue = rampInsert (fun j => (t.rampOf j).cls) k (t.rampOf k).cls (s.power.queue.filter (fun i => i != k)))
    (hh : t.power.holder = s.power.holder) (hs : (t.sessOf k).state = .rampWait) (hl : (t.leaseOf k).isSome = true)
    (htr : (t.rampOf k).state = .queued ∧ (t.rampOf k).gate = false ∧ (t.rampOf k).aux = true) (he : t.entryOf k = none) :
    t.CoherentBut B := by
  obtain ⟨hstate, hgate, haux⟩ := htr
  have hmem : ∀ j, j ∈ t.power.queue ↔ j = k ∨ j ∈ s.power.queue := by
    intro j; rw [hq, mem_rampInsert, mem_filter_ne]; tauto
  refine h.change k ho (fun _ _ => Iff.rfl) (fun j hj => by rw [hmem]; exact or_iff_right hj) (fun _ _ => by rw [hh])
    ⟨fun _ => ?_, fun hk => absurd hk hB, ?_, ?_, ?_, ?_⟩ ?_ ?_
  · rw [hl, hs, hgate, hstate]; exact ⟨rfl, rfl, rfl⟩
  · rw [haux, hs]; rfl
  · rw [hmem, hstate]; exact ⟨fun _ => rfl, fun _ => .inl rfl⟩
  · rw [hh, hstate, (h.slot k).holds]; exact ⟨fun hx => absurd hx hr, fun hx => (nomatch hx)⟩
  · rw [he]; exact fun hx => (nomatch hx)
  · rw [hq]
    exact nodup_rampInsert (h.nodup.filter _) (fun hx => (mem_filter_ne.1 hx).2 rfl)
  · rw [hq]
    refine classOrdered_rampInsert (cls := fun j => (t.rampOf j).cls) ?_
    refine ClassOrdered.congr (List.Pairwise.sublist List.filter_sublist h.ordered) fun j hj => ?_
    rw [(ho j (mem_filter_ne.1 hj).2).2.2.2.1]

theorem State.CoherentBut.joinRamp (h : s.CoherentBut B) (hr : (s.rampOf k).state = .backoff) : (s.joinRamp k).CoherentBut B := by
  obtain ⟨hB, hok, hlease⟩ := h.of_ramp (k := k) (by rw [hr]; decide)
  have hwait := SessState.rampWait_of_waiting hok (.inr hr)
  have hgate := ((h.slot k).settled hB).2.1
  have haux := (h.slot k).aux
  rw [hwait] at hgate haux hlease
  have hnq : k ∉ s.power.queue := fun hx => by
    have := (h.slot k).queued.1 hx
    rw [hr] at this; cases this
  have hcls : ∀ j, ((s.joinRamp k).rampOf j).cls = (s.rampOf j).cls := by
    intro j; rw [rampOf_joinRamp]; split
    · subst_vars; rfl
    · rfl
  refine h.place hB (by rw [hr]; decide) (fun j hj => ⟨rfl, rfl, rfl, ?_, rfl, rfl⟩) ?_ rfl hwait hlease ?_ ?_
  · rw [rampOf_joinRamp, if_neg hj]
  · rw [filter_ne_of_notMem hnq, funext hcls, hcls]; rfl
  · rw [rampOf_joinRamp, if_pos rfl]; exact ⟨rfl, hgate, haux⟩
  · by_contra hn
    rcases (h.slot k).entry (Option.isSome_iff_ne_none.2 hn) with hs | ⟨hs, _⟩ <;> rw [hwait] at hs <;> cases hs

/-- The class of slot `k`'s ramp record changes, in its place (R117). -/
theorem reclassRamp_waiting (h : (s.rampOf k).state = .backoff ∨ (s.rampOf k).state = .ramping) :
    s.reclassRamp k = s.modRamp k (fun r => { r with cls := (s.policyOf k).cls }) := by
  unfold State.reclassRamp
  rcases h with h | h <;> rw [h]

theorem State.CoherentBut.reclassRamp (h : s.CoherentBut B) : (s.reclassRamp k).CoherentBut B := by
  cases hr : (s.rampOf k).state with
  | none => unfold State.reclassRamp; rw [hr]; exact h
  | queued =>
    obtain ⟨hB, hok, hlease⟩ := h.of_ramp (k := k) (by rw [hr]; decide)
    have hwait := SessState.rampWait_of_waiting hok (.inl hr)
    have hgate := ((h.slot k).settled hB).2.1
    have haux := (h.slot k).aux
    rw [hwait] at hgate haux hlease
    have hramp : ∀ j, (s.reclassRamp k).rampOf j = if j = k then { s.rampOf k with cls := (s.policyOf k).cls } else s.rampOf j := by
      intro j; unfold State.reclassRamp; rw [hr]; exact PerSlot.get_set _ _ _ _
    have hentry : s.entryOf k = none := by
      by_contra hn
      rcases (h.slot k).entry (Option.isSome_iff_ne_none.2 hn) with hs | ⟨hs, _⟩ <;> rw [hwait] at hs <;> cases hs
    obtain ⟨ha, _, _, hsess⟩ := reclassRamp_same s k
    have hline : (s.reclassRamp k).line = s.line ∧ (s.reclassRamp k).mon = s.mon ∧
        (s.reclassRamp k).power.holder = s.power.holder := by
      unfold State.reclassRamp; rw [hr]; exact ⟨rfl, rfl, rfl⟩
    obtain ⟨hline, hmon, hhold⟩ := hline
    refine h.place hB (by rw [hr]; decide) (fun j hj => ⟨?_, ?_, ?_, ?_, ?_, entryOf_eq_of_queue (by rw [ha])⟩) ?_ hhold ?_ ?_ ?_ ?_
    · unfold State.sessOf; rw [hsess]
    · unfold State.leaseOf; rw [ha]
    · unfold State.lineOf; rw [hline]
    · rw [hramp, if_neg hj]
    · unfold State.monOf; rw [hmon]
    · unfold State.reclassRamp; rw [hr]; rfl
    · unfold State.sessOf; rw [hsess]; exact hwait
    · unfold State.leaseOf; rw [ha]; exact hlease
    · rw [hramp, if_pos rfl]; exact ⟨hr, hgate, haux⟩
    · exact (entryOf_eq_of_queue (by rw [ha])).trans hentry
  | backoff | ramping =>
    have hnq : k ∉ s.power.queue := fun hx => by
      have := (h.slot k).queued.1 hx
      rw [hr] at this; cases this
    rw [reclassRamp_waiting (by rw [hr]; simp)]
    have hramp : (s.modRamp k (fun r => { r with cls := (s.policyOf k).cls })).rampOf k =
        { s.rampOf k with cls := (s.policyOf k).cls } := by rw [State.rampOf_modRamp, if_pos rfl]
    obtain ⟨h1, h2, h3, h4, h5, h6⟩ := h.slot k
    refine h.change k onlyAt_modRamp.others (fun _ _ => Iff.rfl) (fun _ _ => Iff.rfl) (fun _ _ => Iff.rfl)
      ⟨?_, ?_, ?_, ?_, ?_, h6⟩ h.nodup ?_
    · rw [hramp]; exact h1
    · rw [hramp]; exact h2
    · rw [hramp]; exact h3
    · rw [hramp]; exact h4
    · rw [hramp]; exact h5
    · refine h.ordered.congr fun j hj => ?_
      rw [State.rampOf_modRamp, if_neg]
      rintro rfl
      exact hnq hj

theorem State.CoherentBut.createLease (h : s.CoherentBut B) (hs : (s.sessOf k).state = .standby) (he : s.entryOf k = none)
    (n : Nat) (b : Bool) : (s.createLease k n b).CoherentBut B := by
  obtain ⟨hB, _, hgate, hstate⟩ := h.off (k := k) (by rw [hs]; rfl)
  have haux := (h.slot k).aux
  rw [hs] at haux
  have hnq : k ∉ s.power.queue := fun hx => by
    have := (h.slot k).queued.1 hx
    rw [hstate] at this; cases this
  have hramp : ∀ j, (s.createLease k n b).rampOf j = if j = k then
      { s.rampOf k with tag := (s.sessOf k).tag, cls := (s.policyOf k).cls, retry := 0, state := .queued, timer := 0 }
      else s.rampOf j := by
    intro j
    show ((State.modRamp k _ _).joinRamp k).rampOf j = _
    rw [rampOf_joinRamp, State.rampOf_modRamp, State.rampOf_modRamp, if_pos rfl]
    split
    · rfl
    · rfl
  have hsess : ∀ j, (s.createLease k n b).sessOf j = if j = k then { s.sessOf k with state := .rampWait } else s.sessOf j :=
    fun j => PerSlot.get_set _ _ _ _
  have hlease : ∀ j, (s.createLease k n b).leaseOf j = if j = k then
      some { tag := (s.sessOf k).tag, tier := n, draw := s.drawOf k n, short := b, trans := none } else s.leaseOf j :=
    fun j => PerSlot.get_set _ _ _ _
  refine h.place hB (by rw [hstate]; decide) (fun j hj => ⟨?_, ?_, PerSlot.get_set_ne _ _ hj, ?_, rfl, rfl⟩) ?_ rfl ?_ ?_ ?_ he
  · rw [hsess, if_neg hj]
  · rw [hlease, if_neg hj]
  · rw [hramp, if_neg hj]
  · have hcls : ∀ j, ((s.createLease k n b).rampOf j).cls = ((s.modRamp k (fun r =>
        { r with tag := (s.sessOf k).tag, cls := (s.policyOf k).cls, retry := 0 })).rampOf j).cls := by
      intro j; rw [hramp, State.rampOf_modRamp]; split <;> rfl
    rw [filter_ne_of_notMem hnq, funext hcls, hcls]; rfl
  · rw [hsess, if_pos rfl]
  · rw [hlease, if_pos rfl]; rfl
  · rw [hramp, if_pos rfl]; exact ⟨rfl, hgate, haux⟩

/-! ### The drop of a lease -/

theorem power_dropLease (h : (s.leaseOf k).isSome = true) : (s.dropLease k).power = (s.releasePath k).power := by
  obtain ⟨l, hl⟩ := Option.isSome_iff_exists.1 h
  unfold State.dropLease; rw [hl]; dsimp only
  split
  · have hp := (creditVictim_frame (s := s.setLease k none) (k := k)
      (n := s.commitment k - (s.setLease k none).commitment k)).2.2.1
    show State.power (State.releasePath k _) = _
    unfold State.releasePath
    simp only [State.modMon_power, State.modRamp, State.modLine_power, State.wantPass_power, hp, State.setLease_power]
  · rfl

theorem rampOf_dropLease (h : (s.leaseOf k).isSome = true) :
    (s.dropLease k).rampOf k = { s.rampOf k with state := .none, tag := 0, timer := 0, gate := false } := by
  unfold State.rampOf; rw [power_dropLease h]; exact PerSlot.get_set_self _ _ _

theorem dropLease_of_none (h : s.leaseOf k = none) : s.dropLease k = s := by unfold State.dropLease; rw [h]

theorem State.CoherentBut.dropLease (h : s.CoherentBut B) (hk : (s.leaseOf k).isSome = true ∨ (s.sessOf k).state.leased = true) :
    (s.dropLease k).CoherentBut (Insert.insert k B) := by
  by_cases hl : (s.leaseOf k).isSome = true
  · obtain ⟨hB, hleased⟩ := h.of_lease hl
    have hoff := dropLease_leaseOff hl
    obtain ⟨hnone, _, hstate, _, hgate, _, _, hnq, hnh, _, _⟩ := hoff
    have hpower := power_dropLease hl
    have hsess : (s.dropLease k).sess = s.sess := (dropLease_keeps (s := s) (k := k)).1
    have hs : (s.dropLease k).sessOf k = s.sessOf k := by unfold State.sessOf; rw [hsess]
    have hq : (s.dropLease k).power.queue = s.power.queue.filter (fun i => i != k) := by rw [hpower]; rfl
    have hh : (s.dropLease k).power.holder = if s.power.holder = some k then none else s.power.holder := by rw [hpower]; rfl
    refine h.change k onlyAt_dropLease.others (fun j hj => by simp [hj]) (fun j hj => ?_) (fun j hj => ?_)
      ⟨fun hx => absurd (Finset.mem_insert_self k B) hx, fun _ => ⟨hnone, by rw [hs]; exact hleased, hgate, hstate⟩, ?_, ?_, ?_, ?_⟩ ?_ ?_
    · rw [hq, mem_filter_ne]; exact and_iff_left hj
    · rw [hh]; split
      · rename_i hx
        rw [hx]; exact ⟨fun hx => (nomatch hx), fun hx => absurd (Option.some.inj hx).symm hj⟩
      · exact Iff.rfl
    · rw [rampOf_dropLease hl, hs]; exact (h.slot k).aux
    · rw [hstate]; exact ⟨fun hx => absurd hx hnq, fun hx => (nomatch hx)⟩
    · rw [hstate]; exact ⟨fun hx => absurd hx hnh, fun hx => (nomatch hx)⟩
    · rw [hs, dropLease_credits.2]; exact (h.slot k).entry
    · rw [hq]; exact h.nodup.filter _
    · rw [hq]
      refine ClassOrdered.congr (List.Pairwise.sublist List.filter_sublist h.ordered) fun j hj => ?_
      rw [(onlyAt_dropLease.others j (mem_filter_ne.1 hj).2).2.2.2.1]
  · have hleased := hk.resolve_left hl
    have hB : k ∈ B := by
      by_contra hB
      rw [((h.slot k).settled hB).1, hleased] at hl
      exact hl rfl
    rw [dropLease_of_none (by simpa using hl), Finset.insert_eq_self.2 hB]
    exact h

/-! ### Every deed -/

theorem turn_keeps_coherent (h : Turn B s C t) (hs : s.CoherentBut B) : t.CoherentBut C := by
  cases h with
  | close k f st hst h =>
    obtain ⟨h1, h2, h3, h4⟩ := hs.closing h
    exact hs.enter f (SessState.not_leased_of_closed hst) ⟨h1, h2, h3⟩ (fun hx => by rw [h4] at hx; cases hx)
  | welcome k f d h hd hl =>
    obtain ⟨h1, h2, h3, h4⟩ := hs.closing (.inl h)
    have := hs.enter f (st := .standby) rfl ⟨h1, h2, h3⟩ (fun hx => by rw [h4] at hx; cases hx)
    rwa [Finset.erase_eq_of_notMem (hs.off (SessState.not_leased_of_closed h)).1] at this
  | stand k hk ha =>
    obtain ⟨h1, _, h2, h3⟩ := (hs.slot k).unsettled hk
    have := hs.enter (k := k) id (st := .standby) rfl ⟨h1, h2, h3⟩
      (fun hx => ⟨rfl, ha.resolve_right (Option.isSome_iff_ne_none.1 hx)⟩)
    rwa [modSess_id] at this
  | flag k b h =>
    have hsess : (s.modSess k (fun x => { x with admitFlag := b })).sessOf k = { s.sessOf k with admitFlag := b } := by
      rw [State.sessOf_modSess, if_pos rfl]
    obtain ⟨h1, h2, h3, h4, h5, h6⟩ := hs.slot k
    refine hs.change k onlyAt_modSess.others (fun _ _ => Iff.rfl) (fun _ _ => Iff.rfl) (fun _ _ => Iff.rfl)
      ⟨by rw [hsess]; exact h1, by rw [hsess]; exact h2, by rw [hsess]; exact h3, h4, h5, ?_⟩ hs.nodup hs.ordered
    rw [hsess]
    intro hx
    rcases h6 hx with h6 | ⟨h6, _⟩
    · exact .inl h6
    · rcases h with rfl | h | h
      · exact .inr ⟨h6, rfl⟩
      · exact absurd h (Option.isSome_iff_ne_none.1 hx)
      · have := (hs.of_lease h).2
        rw [h6] at this; cases this
  | start k hh hq => exact hs.startRamp hh hq
  | done k hr => exact hs.completeRamp hr
  | backOff k hr => exact hs.backOff hr
  | rejoin k hr => exact hs.joinRamp hr
  | reclass k => exact hs.reclassRamp

theorem State.CoherentBut.setLease {l l' : Lease} (h : s.CoherentBut B) (hl : s.leaseOf k = some l) :
    (s.setLease k (some l')).CoherentBut B := by
  refine h.congr_alloc (fun j => ?_) rfl rfl (fun _ hx => hx)
  rw [State.leaseOf_setLease]; split
  · subst_vars; rw [hl]; rfl
  · rfl

theorem State.CoherentBut.endLowerKept (h : s.CoherentBut B) (u d : Nat) : (s.endLowerKept k u d).CoherentBut B := by
  unfold State.endLowerKept
  split
  · exact h
  · rename_i l hl
    dsimp only
    obtain ⟨h1, _, h2, _, h3, _, h4, _⟩ := creditVictim_frame (k := k)
      (s := s.setLease k (some { l with tier := u, draw := d, trans := none }))
      (n := s.commitment k - (s.setLease k (some { l with tier := u, draw := d, trans := none })).commitment k)
    refine (h.setLease (l' := { l with tier := u, draw := d, trans := none }) hl).congr_alloc (fun j => ?_) h1 h2 (fun j hx => ?_)
    · unfold State.leaseOf; rw [State.wantPass_alloc_leases, h3]
    · rw [State.entryOf_wantPass] at hx
      rwa [← entryOf_eq_of_queue h4]

theorem State.CoherentBut.removeEntry (h : s.CoherentBut B) : (s.removeEntry k).CoherentBut B := by
  obtain ⟨h1, _, h3, _, _, _⟩ := removeEntry_frame (s := s) (k := k)
  refine h.congr_alloc (fun j => by rw [leaseOf_removeEntry]) h1 h3 (fun j hx => ?_)
  by_cases hj : j = k
  · subst hj; rw [entryOf_removeEntry_self] at hx; cases hx
  · rwa [entryOf_removeEntry_ne hj] at hx

theorem sessOf_tick (j : Slot) : s.tick.sessOf j = { s.sessOf j with presence := (s.sessOf j).presence.tick } := PerSlot.get_map _ _ _

theorem rampOf_tick (j : Slot) : s.tick.rampOf j = { s.rampOf j with timer := (s.rampOf j).timer - 1 } := PerSlot.get_map _ _ _

theorem State.CoherentBut.tick (h : s.CoherentBut B) : s.tick.CoherentBut B := by
  refine h.congr (fun j => by rw [leaseOf_tick, Option.isSome_map]) (fun j => ?_) (fun j => ?_) rfl rfl (fun _ hx => hx)
  · rw [sessOf_tick]; rfl
  · rw [rampOf_tick]; rfl

/-- A grant goes to a slot in ON with a lease, or in STANDBY without one (R23). -/
theorem State.CoherentBut.granted {e : Entry} (h : s.CoherentBut ∅) (he : s.entryOf k = some e) :
    ((s.leaseOf k).isSome = true → (s.sessOf k).state = .on) ∧ (s.leaseOf k = none → (s.sessOf k).state = .standby) := by
  have hl := ((h.slot k).settled (Finset.notMem_empty k)).1
  rcases (h.slot k).entry (by rw [he]; rfl) with hs | ⟨hs, _⟩
  · rw [hs] at hl
    exact ⟨fun _ => hs, fun hn => by rw [hn] at hl; cases hl⟩
  · rw [hs] at hl
    exact ⟨fun hx => (by rw [hx] at hl; cases hl), fun _ => hs⟩

theorem State.CoherentBut.grant {e : Entry} {n : Nat} (h : s.CoherentBut ∅) (he : s.entryOf e.slot = some e) :
    (s.grant e n).CoherentBut ∅ := by
  refine State.CoherentBut.alike ?_ (grant_alike he)
  have hr := h.removeEntry (k := e.slot)
  cases hl : s.leaseOf e.slot with
  | some l =>
    rw [letGrant_some (l := l) ((leaseOf_removeEntry _).trans hl)]
    exact (hr.setLease (k := e.slot) ((leaseOf_removeEntry _).trans hl)).congr_alloc (fun _ => rfl) rfl rfl (fun _ hx => hx)
  | none =>
    rw [letGrant_none ((leaseOf_removeEntry _).trans hl)]
    refine hr.createLease ?_ entryOf_removeEntry_self _ _
    have hs : (s.removeEntry e.slot).sess = s.sess := (removeEntry_frame (s := s) (k := e.slot)).1
    unfold State.sessOf; rw [hs]
    exact (h.granted he).2 hl

theorem deed_keeps_coherent {o o' : Owed} (h : Deed o s o' t) (hs : s.CoherentBut o.unsettled) : t.CoherentBut o'.unsettled := by
  cases h with
  | frame h => exact hs.alike h
  | turn h => exact turn_keeps_coherent h hs
  | mode | limits | tested | policy | abandon | begin | shrink => exact hs.congr_alloc (fun _ => rfl) rfl rfl (fun _ hx => hx)
  | drop k h => exact hs.dropLease h
  | relet k l l' hl _ _ => exact hs.setLease hl
  | kept k u d l _ _ _ => exact hs.endLowerKept u d
  | tick => exact hs.tick
  | grant e he _ _ _ => exact hs.grant he
  | leave k => exact hs.removeEntry
  | join e he hst ha _ =>
    obtain ⟨hslot, hnodup, hord⟩ := hs
    refine ⟨fun j => ?_, hnodup, hord⟩
    obtain ⟨h1, h2, h3, h4, h5, h6⟩ := hslot j
    refine ⟨h1, h2, h3, h4, h5, fun hx => ?_⟩
    rw [entryOf_joinEntry he] at hx
    by_cases hj : j = e.slot
    · subst hj; exact hst.imp id (fun hx => ⟨hx, ha⟩)
    · rw [if_neg hj] at hx; exact h6 hx
  | retier k g w l _ =>
    refine hs.congr_alloc (fun _ => rfl) rfl rfl fun j hx => ?_
    rwa [entryOf_retier, Option.isSome_map] at hx

end Sys2Proof.Machine
end

section
/-! PROOFS. Tiers, draws and targets lie in the session's list: every deed keeps it where the blocks agree (R9, R13, R22, R80). -/

namespace Sys2Proof.Machine

variable {s t : State} {k : Slot} {B C : Finset Slot}

/-! ### The list of a session -/

theorem ascending_pairwise {ws : List Word} (h : ascending ws = true) : (ws.map BitVec.toNat).Pairwise (· < ·) := by
  rw [← List.isChain_iff_pairwise]
  induction ws with
  | nil => exact List.isChain_nil
  | cons a ws ih =>
    cases ws with
    | nil => exact List.isChain_singleton _
    | cons b rest =>
      simp only [ascending, Bool.and_eq_true, decide_eq_true_eq] at h
      exact List.isChain_cons_cons.2 ⟨h.1, ih h.2⟩

/-- The draws of a tier list ascend with the tier (R78). -/
theorem Descriptor.drawOf_mono {d : Descriptor} (h : d.listOk = true) {a b : Nat} (hab : a ≤ b) (hb : b ≤ d.tiers) :
    d.drawOf a ≤ d.drawOf b := by
  have hasc : ascending d.draws = true := by
    unfold Descriptor.listOk at h
    simp only [Bool.and_eq_true] at h
    exact h.1.1.2
  unfold Descriptor.drawOf
  split
  · exact Nat.zero_le _
  split
  · omega
  rcases hab.lt_or_eq with hlt | rfl
  · have hb' : b - 1 < d.draws.length := by unfold Descriptor.tiers at hb; omega
    have ha' : a - 1 < d.draws.length := by omega
    have := List.pairwise_iff_getElem.1 (ascending_pairwise hasc) (a - 1) (b - 1) (by rwa [List.length_map])
      (by rwa [List.length_map]) (by omega)
    rw [List.getElem_map, List.getElem_map] at this
    rw [List.getElem?_eq_getElem ha', List.getElem?_eq_getElem hb']
    exact this.le
  · exact le_rfl

theorem State.Listed.drawOf_mono (h : s.Listed k) {a b : Nat} (hab : a ≤ b) (hb : b ≤ s.tiersOf k) : s.drawOf k a ≤ s.drawOf k b := by
  obtain ⟨d, hd, hok⟩ := h
  unfold State.tiersOf at hb
  unfold State.drawOf
  rw [hd] at hb ⊢
  exact d.drawOf_mono hok hab hb

theorem drawOf_congr (h : (t.sessOf k).desc = (s.sessOf k).desc) (n : Nat) : t.drawOf k n = s.drawOf k n := by
  unfold State.drawOf; rw [h]

theorem tiersOf_congr (h : (t.sessOf k).desc = (s.sessOf k).desc) : t.tiersOf k = s.tiersOf k := by
  unfold State.tiersOf; rw [h]

theorem State.Listed.congr (h : s.Listed k) (hd : (t.sessOf k).desc = (s.sessOf k).desc) : t.Listed k := by
  unfold State.Listed; rw [hd]; exact h

theorem State.LeaseLaw.congr {l : Lease} (h : s.LeaseLaw k l) (hs : (t.sessOf k).state = (s.sessOf k).state)
    (hd : (t.sessOf k).desc = (s.sessOf k).desc) : t.LeaseLaw k l := by
  obtain ⟨h1, h2, h3, h4⟩ := h
  refine ⟨h1, by rw [tiersOf_congr hd]; exact h2, by rw [drawOf_congr hd]; exact h3, fun x hx => ?_⟩
  have := h4 x hx
  cases x with
  | raise n d g => simp only [State.TransitionLaw, hs, tiersOf_congr hd, drawOf_congr hd]; exact this
  | lower n d g left => simp only [State.TransitionLaw, hs, drawOf_congr hd]; exact this

/-- A lease without a transition is lawful by its tier alone. -/
theorem State.LeaseLaw.of_plain {l : Lease} (h1 : 1 ≤ l.tier) (h2 : l.tier ≤ s.tiersOf k) (h3 : l.draw = s.drawOf k l.tier)
    (h4 : l.trans = none) : s.LeaseLaw k l := ⟨h1, h2, h3, fun x hx => by rw [h4] at hx; cases hx⟩

/-- A lease of a session that is not in ON has no transition. -/
theorem State.LeaseLaw.plain_of_not_on {l : Lease} (h : s.LeaseLaw k l) (hs : (s.sessOf k).state ≠ .on) : l.trans = none := by
  cases hx : l.trans with
  | none => rfl
  | some x =>
    have := h.trans x hx
    cases x with
    | raise => exact absurd this.1 hs
    | lower => exact absurd this.1 hs

theorem State.ClaimLaw.congr {e e' : Entry} (h : s.ClaimLaw k e) (hd : (t.sessOf k).desc = (s.sessOf k).desc)
    (he : e.claim = e'.claim) : t.ClaimLaw k e' := by
  obtain ⟨hw, hl⟩ := Prod.mk.inj (Prod.mk.inj he).2
  unfold State.ClaimLaw at *
  rw [← hw, ← hl, tiersOf_congr hd]; exact h

/-- Session list and state, lease and entry of slot `k` as they stood. -/
theorem State.TierAt.congr (h : s.TierAt k) (hs : (t.sessOf k).state = (s.sessOf k).state)
    (hd : (t.sessOf k).desc = (s.sessOf k).desc) (hl : t.leaseOf k = s.leaseOf k)
    (he : (t.entryOf k).map Entry.claim = (s.entryOf k).map Entry.claim) : t.TierAt k where
  listed hx := (h.listed (by rw [← hs]; exact hx)).congr hd
  lease l hx := (h.lease l (by rw [← hl]; exact hx)).congr hs hd
  entry e hx := by
    rw [hx] at he
    obtain ⟨x, hx, hc⟩ := Option.map_eq_some_iff.1 he.symm
    exact (h.entry x hx).congr hd hc

theorem State.TierAt.same (h : s.TierAt k) (ho : s.SameSlot t k) : t.TierAt k := by
  obtain ⟨hs, hl, _, _, _, he⟩ := ho
  exact h.congr (by rw [hs]) (by rw [hs]) hl (by rw [he])

/-- Slot `k` has neither lease nor entry. -/
theorem State.TierAt.of_none (hl : t.leaseOf k = none) (he : t.entryOf k = none)
    (ho : (t.sessOf k).state.isOpen = true → t.Listed k) : t.TierAt k :=
  ⟨ho, fun l hx => (by rw [hl] at hx; cases hx), fun e hx => (by rw [he] at hx; cases hx)⟩

/-- A session that has a lease and is not in ON moves between states of the ramp, or to ON: its lease has no transition. -/
theorem State.TierAt.ramp (h : s.TierAt k) (hn : (s.sessOf k).state ≠ .on) (hopen : (s.sessOf k).state.isOpen = true)
    (ha : t.alloc = s.alloc) (hd : (t.sessOf k).desc = (s.sessOf k).desc) : t.TierAt k where
  listed _ := (h.listed hopen).congr hd
  lease l hx := by
    unfold State.leaseOf at hx; rw [ha] at hx
    have hold := h.lease l hx
    exact .of_plain hold.pos (by rw [tiersOf_congr hd]; exact hold.le) (by rw [drawOf_congr hd]; exact hold.draw)
      (hold.plain_of_not_on hn)
  entry e hx := (h.entry e ((entryOf_eq_of_queue (by rw [ha])).trans hx)).congr hd rfl

/-- A lease comes with the session's list. -/
theorem State.TierLaw.listed_of_lease {l : Lease} (h : s.TierLaw) (hc : s.CoherentBut B) (hl : s.leaseOf k = some l) :
    s.Listed k ∧ s.LeaseLaw k l :=
  ⟨(tierLaw_iff.1 h k).listed (SessState.open_of_leased (hc.of_lease (by rw [hl]; rfl)).2), (tierLaw_iff.1 h k).lease l hl⟩

/-! ### Turns -/

/-- The turn of slot `k` that leaves every other session. -/
theorem State.TierLaw.turn (h : s.TierLaw) (k : Slot) (ha : t.alloc = s.alloc) (ho : ∀ j, j ≠ k → t.sessOf j = s.sessOf j)
    (hk : s.TierAt k → t.TierAt k) : t.TierLaw := by
  rw [tierLaw_iff] at h ⊢
  intro j
  by_cases hj : j = k
  · subst hj; exact hk (h j)
  · have he : t.entryOf j = s.entryOf j := entryOf_eq_of_queue (by rw [ha])
    exact (h j).congr (by rw [ho j hj]) (by rw [ho j hj]) (by unfold State.leaseOf; rw [ha]) (by rw [he])

theorem turn_keeps_tier (h : Turn B s C t) (hc : s.CoherentBut B) (hs : s.TierLaw) : t.TierLaw := by
  have ha := h.same.1
  cases h with
  | close k f st hst h =>
    obtain ⟨hl, _, _, he⟩ := hc.closing h
    refine hs.turn k ha (fun j hj => ((onlyAt_modSess.trans onlyAt_enter).others j hj).1) fun _ => .of_none hl he fun hx => ?_
    rw [sessOf_enter] at hx
    exact absurd hx (by rw [hst]; exact Bool.false_ne_true)
  | welcome k f d h hd hok =>
    obtain ⟨hl, _, _, he⟩ := hc.closing (.inl h)
    refine hs.turn k ha (fun j hj => ((onlyAt_modSess.trans onlyAt_enter).others j hj).1) fun _ => .of_none hl he fun _ =>
      ⟨d, ?_, hok⟩
    rw [sessOf_enter, State.sessOf_modSess, if_pos rfl]; exact hd
  | stand k hk _ =>
    obtain ⟨hl, hleased, _, _⟩ := (hc.slot k).unsettled hk
    have hd : ((s.enter k .standby).sessOf k).desc = (s.sessOf k).desc := by rw [sessOf_enter]
    exact hs.turn k ha (fun j hj => (onlyAt_enter.others j hj).1) fun h =>
      ⟨fun _ => (h.listed (SessState.open_of_leased hleased)).congr hd, fun l hx => (by rw [show s.leaseOf k = some l from hx] at hl; cases hl),
        fun e hx => (h.entry e hx).congr hd rfl⟩
  | flag k b _ =>
    have hsess : (s.modSess k (fun x => { x with admitFlag := b })).sessOf k = { s.sessOf k with admitFlag := b } := by
      rw [State.sessOf_modSess, if_pos rfl]
    exact hs.turn k ha (fun j hj => (onlyAt_modSess.others j hj).1) fun h => h.congr (by rw [hsess]) (by rw [hsess]) rfl rfl
  | start k _ hq =>
    have hqueued := (hc.slot k).queued.1 hq
    have hwait := SessState.rampWait_of_waiting (hc.of_ramp (k := k) (by rw [hqueued]; decide)).2.1 (.inl hqueued)
    exact hs.turn k ha (fun j hj => by rw [sessOf_startRamp, if_neg hj]) fun h =>
      h.ramp (by rw [hwait]; decide) (by rw [hwait]; rfl) ha (by rw [sessOf_startRamp, if_pos rfl])
  | done k hr =>
    have hok := (hc.of_ramp (k := k) (by rw [hr]; decide)).2.1
    rw [hr] at hok
    have hramping := SessState.ramping_of_ramping hok
    have hsess := (completeRamp_parts (s := s) (k := k)).1
    refine hs.turn k ha (fun j hj => (onlyAt_completeRamp_others j hj).1) fun h =>
      h.ramp (by rw [hramping]; decide) (by rw [hramping]; rfl) ha ?_
    unfold State.sessOf; rw [hsess, PerSlot.get_set_self]; rfl
  | backOff k hr =>
    have hok := (hc.of_ramp (k := k) (by rw [hr]; decide)).2.1
    rw [hr] at hok
    have hramping := SessState.ramping_of_ramping hok
    refine hs.turn k ha (fun j hj => PerSlot.get_set_ne _ _ hj) fun h =>
      h.ramp (by rw [hramping]; decide) (by rw [hramping]; rfl) ha ?_
    show ((s.sess.set k { s.sessOf k with state := .rampWait }).get k).desc = _
    rw [PerSlot.get_set_self]
  | rejoin k _ => exact hs.turn k ha (fun _ _ => rfl) fun h => h.congr rfl rfl rfl rfl
  | reclass k =>
    obtain ⟨_, _, _, hsess⟩ := reclassRamp_same s k
    have hso : ∀ j, (s.reclassRamp k).sessOf j = s.sessOf j := fun j => by unfold State.sessOf; rw [hsess]
    have he : (s.reclassRamp k).entryOf k = s.entryOf k := entryOf_eq_of_queue (by rw [ha])
    exact hs.turn k ha (fun j _ => hso j) fun h =>
      h.congr (by rw [hso]) (by rw [hso]) (by unfold State.leaseOf; rw [ha]) (by rw [he])

/-! ### Every deed -/

/-- What changes at slot `k` alone. -/
theorem State.TierLaw.change (h : s.TierLaw) (ho : s.OthersSame t k) (hk : s.TierAt k → t.TierAt k) : t.TierLaw := by
  rw [tierLaw_iff] at h ⊢
  intro j
  by_cases hj : j = k
  · subst hj; exact hk (h j)
  · exact (h j).same (ho j hj)

theorem State.TierLaw.alike (h : s.TierLaw) (ha : s.Alike t) : t.TierLaw :=
  tierLaw_iff.2 fun j => (tierLaw_iff.1 h j).congr (ha.state j) (ha.desc j) (ha.leaseOf j) (ha.entry j)

theorem State.TierLaw.setLease {l' : Lease} (h : s.TierLaw) (hl : s.LeaseLaw k l') : (s.setLease k (some l')).TierLaw :=
  h.change onlyAt_setLease.others fun hk =>
    ⟨hk.listed, fun l hx => by
      rw [State.leaseOf_setLease, if_pos rfl] at hx
      cases hx; exact hl.congr rfl rfl, hk.entry⟩

theorem onlyAt_endLowerKept {u d : Nat} : State.OnlyAt k s (s.endLowerKept k u d) := by
  unfold State.endLowerKept; split
  · exact .refl _ _
  · exact (onlyAt_setLease.trans onlyAt_creditVictim).trans onlyAt_wantPass

/-- The lease at a kept end of a LOWER, and what else stays (R18). -/
theorem endLowerKept_parts {u d : Nat} {l : Lease} (hl : s.leaseOf k = some l) :
    (s.endLowerKept k u d).leaseOf k = some { l with tier := u, draw := d, trans := none } ∧
    (s.endLowerKept k u d).sess = s.sess ∧ (s.endLowerKept k u d).alloc.queue = s.alloc.queue := by
  unfold State.endLowerKept; rw [hl]; dsimp only
  obtain ⟨h1, _, _, _, h3, _, h4, _⟩ := creditVictim_frame (k := k)
    (s := s.setLease k (some { l with tier := u, draw := d, trans := none }))
    (n := s.commitment k - (s.setLease k (some { l with tier := u, draw := d, trans := none })).commitment k)
  refine ⟨?_, h1, h4⟩
  unfold State.leaseOf
  rw [State.wantPass_alloc_leases, h3]
  exact PerSlot.get_set_self _ _ _

theorem State.LeaseLaw.tick {l : Lease} (h : s.LeaseLaw k l) : s.tick.LeaseLaw k l.tick := by
  obtain ⟨ht, hd, _, _⟩ := l.tick_fields
  have hsess : (s.tick.sessOf k).state = (s.sessOf k).state ∧ (s.tick.sessOf k).desc = (s.sessOf k).desc := by
    rw [sessOf_tick]; exact ⟨rfl, rfl⟩
  obtain ⟨h1, h2, h3, h4⟩ := h.congr hsess.1 hsess.2
  refine ⟨by rw [ht]; exact h1, by rw [ht]; exact h2, by rw [ht, hd]; exact h3, fun x hx => ?_⟩
  rw [ht]
  unfold Lease.tick at hx
  split at hx
  · rename_i n d g left hlow
    cases hx
    exact h4 (.lower n d g left) hlow
  · exact h4 x hx

theorem highestTier_spec (ok : Nat → Bool) (n : Nat) (h : highestTier ok n ≠ 0) :
    ok (highestTier ok n) = true ∧ highestTier ok n ≤ n := by
  induction n with
  | zero => exact absurd rfl h
  | succ n ih =>
    unfold highestTier at h ⊢
    split
    · exact ⟨‹_›, le_rfl⟩
    · rw [if_neg ‹_›] at h
      exact ⟨(ih h).1, (ih h).2.trans (Nat.le_succ n)⟩

theorem highestTier_le (ok : Nat → Bool) (n : Nat) : highestTier ok n ≤ n := by
  by_cases h : highestTier ok n = 0
  · rw [h]; exact Nat.zero_le _
  · exact (highestTier_spec ok n h).2

/-- What a tier that is granted meets (R39). -/
theorem grantTier_spec {e : Entry} (h : s.grantTier e ≠ 0) : s.lowestTier e ≤ s.grantTier e ∧ s.grantTier e ≤ e.wanted ∧
    s.drawOf e.slot (s.grantTier e) ≤ (s.policyOf e.slot).cap ∧ s.need e.slot (s.grantTier e) ≤ s.budgetFor e.slot := by
  obtain ⟨hok, hle⟩ := highestTier_spec _ _ h
  simp only [Bool.and_eq_true, decide_eq_true_eq] at hok
  exact ⟨hok.1.1.1, hle, hok.1.2, hok.2⟩

theorem State.TierLaw.removeEntry (h : s.TierLaw) : (s.removeEntry k).TierLaw := by
  refine h.change onlyAt_removeEntry.others fun hk => ?_
  have hs : (s.removeEntry k).sess = s.sess := (removeEntry_frame (s := s) (k := k)).1
  have hso : (s.removeEntry k).sessOf k = s.sessOf k := by unfold State.sessOf; rw [hs]
  refine ⟨fun hx => (hk.listed (by rw [← hso]; exact hx)).congr (by rw [hso]), fun l hx => ?_, fun e hx => ?_⟩
  · rw [leaseOf_removeEntry] at hx
    exact (hk.lease l hx).congr (by rw [hso]) (by rw [hso])
  · rw [entryOf_removeEntry_self] at hx; cases hx

/-- A new lease of a tier in the list, on a slot without an entry (R10). -/
theorem State.TierLaw.createLease {n : Nat} {b : Bool} (h : s.TierLaw) (he : s.entryOf k = none)
    (hs : (s.sessOf k).state.isOpen = true) (hn : 1 ≤ n ∧ n ≤ s.tiersOf k) : (s.createLease k n b).TierLaw := by
  have hsess : ∀ j, (s.createLease k n b).sessOf j = if j = k then { s.sessOf k with state := .rampWait } else s.sessOf j :=
    fun j => PerSlot.get_set _ _ _ _
  have hlease : ∀ j, (s.createLease k n b).leaseOf j = if j = k then
      some { tag := (s.sessOf k).tag, tier := n, draw := s.drawOf k n, short := b, trans := none } else s.leaseOf j :=
    fun j => PerSlot.get_set _ _ _ _
  rw [tierLaw_iff] at h ⊢
  intro j
  by_cases hj : j = k
  · subst hj
    have hd : ((s.createLease j n b).sessOf j).desc = (s.sessOf j).desc := by rw [hsess, if_pos rfl]
    refine ⟨fun _ => ((h j).listed hs).congr hd, fun l hx => ?_, fun x hx => ?_⟩
    · rw [hlease, if_pos rfl] at hx
      cases hx
      exact .of_plain hn.1 (by rw [tiersOf_congr hd]; exact hn.2) (by rw [drawOf_congr hd]) rfl
    · have : s.entryOf j = some x := hx
      rw [he] at this; cases this
  · exact (h j).congr (by rw [hsess, if_neg hj]) (by rw [hsess, if_neg hj]) (by rw [hlease, if_neg hj]) rfl

theorem State.TierLaw.grant {e : Entry} (h : s.TierLaw) (hc : s.CoherentBut ∅) (he : s.entryOf e.slot = some e)
    (ht : s.grantTier e ≠ 0) : (s.grant e (s.grantTier e)).TierLaw := by
  refine State.TierLaw.alike ?_ (grant_alike he)
  obtain ⟨hlow, hwanted, _, _⟩ := grantTier_spec ht
  generalize s.grantTier e = n at *
  have htiers := ((tierLaw_iff.1 h e.slot).entry e he).2.2
  have hr := h.removeEntry (k := e.slot)
  have hs : (s.removeEntry e.slot).sess = s.sess := (removeEntry_frame (s := s) (k := e.slot)).1
  have hso : (s.removeEntry e.slot).sessOf e.slot = s.sessOf e.slot := by unfold State.sessOf; rw [hs]
  cases hl : s.leaseOf e.slot with
  | some l =>
    have hl' := (leaseOf_removeEntry (s := s) (k := e.slot) e.slot).trans hl
    rw [letGrant_some hl']
    refine State.TierLaw.change (k := e.slot) (hr.setLease (k := e.slot)
      (l' := { l with trans := some (.raise n ((s.removeEntry e.slot).drawOf e.slot n) e.origin) }) ?_) onlyAt_modLine.others
      fun hk => hk.congr rfl rfl rfl rfl
    obtain ⟨h1, h2, h3, _⟩ := (tierLaw_iff.1 hr e.slot).lease l hl'
    refine ⟨h1, h2, h3, fun x hx => ?_⟩
    cases hx
    unfold State.lowestTier at hlow
    rw [hl] at hlow
    refine ⟨?_, ?_, ?_, rfl⟩
    · rw [hso]; exact (hc.granted he).1 (by rw [hl]; rfl)
    · dsimp only at hlow ⊢; omega
    · rw [tiersOf_congr (s := s) (by rw [hso])]; exact hwanted.trans htiers
  | none =>
    rw [letGrant_none ((leaseOf_removeEntry (s := s) (k := e.slot) e.slot).trans hl)]
    refine hr.createLease entryOf_removeEntry_self (by rw [hso, (hc.granted he).2 hl]; rfl) ⟨Nat.one_le_iff_ne_zero.2 ht, ?_⟩
    rw [tiersOf_congr (s := s) (by rw [hso])]; exact hwanted.trans htiers

theorem State.TierLaw.dropLease (h : s.TierLaw) : (s.dropLease k).TierLaw := by
  have hsess : (s.dropLease k).sessOf k = s.sessOf k := by
    unfold State.sessOf; rw [(dropLease_keeps (s := s) (k := k)).1]
  have hnone : (s.dropLease k).leaseOf k = none := by
    by_cases hl : (s.leaseOf k).isSome = true
    · exact (dropLease_leaseOff hl).1
    · have hl : s.leaseOf k = none := by simpa using hl
      rw [dropLease_of_none hl]; exact hl
  refine h.change onlyAt_dropLease.others fun hk => ⟨fun hx => (hk.listed (by rw [← hsess]; exact hx)).congr (by rw [hsess]),
    fun l hx => (by rw [hnone] at hx; cases hx), fun e hx => (hk.entry e ?_).congr (by rw [hsess]) rfl⟩
  rwa [dropLease_credits.2] at hx

/-- A LOWER ends at a tier of the list with its draw (R18). -/
theorem State.TierLaw.endLowerKept {n d : Nat} {l : Lease} (h : s.TierLaw) (hl : s.leaseOf k = some l)
    (hn : 1 ≤ n ∧ n ≤ s.tiersOf k ∧ d = s.drawOf k n) : (s.endLowerKept k n d).TierLaw := by
  obtain ⟨hpos, hle, hdraw⟩ := hn
  obtain ⟨hlease, hsess, hqueue⟩ := endLowerKept_parts (u := n) (d := d) hl
  have hsess : (s.endLowerKept k n d).sessOf k = s.sessOf k := by unfold State.sessOf; rw [hsess]
  refine h.change onlyAt_endLowerKept.others fun hk => ⟨fun hx => (hk.listed (by rw [← hsess]; exact hx)).congr (by rw [hsess]),
    fun l' hx => ?_, fun e hx => (hk.entry e ?_).congr (by rw [hsess]) rfl⟩
  · rw [hlease] at hx
    cases hx
    exact .of_plain hpos (by rw [tiersOf_congr (s := s) (by rw [hsess])]; exact hle)
      (by rw [drawOf_congr (s := s) (by rw [hsess])]; exact hdraw) rfl
  · rwa [entryOf_eq_of_queue hqueue] at hx

theorem State.TierLaw.tick (h : s.TierLaw) : s.tick.TierLaw := by
  rw [tierLaw_iff] at h ⊢
  refine fun j => ⟨fun hx => ?_, fun l hx => ?_, fun e hx => ?_⟩
  · rw [sessOf_tick] at hx
    exact ((h j).listed hx).congr (by rw [sessOf_tick])
  · rw [leaseOf_tick] at hx
    obtain ⟨l', hl', rfl⟩ := Option.map_eq_some_iff.1 hx
    exact ((h j).lease l' hl').tick
  · exact ((h j).entry e hx).congr (by rw [sessOf_tick]) rfl

/-- Leases and sessions as they were, and every entry one that its slot may hold. -/
theorem State.TierLaw.requeue (h : s.TierLaw) (hs : t.sess = s.sess) (hl : t.alloc.leases = s.alloc.leases)
    (he : ∀ j e, t.entryOf j = some e → s.ClaimLaw j e) : t.TierLaw := by
  have hsess : ∀ j, t.sessOf j = s.sessOf j := fun j => by unfold State.sessOf; rw [hs]
  rw [tierLaw_iff] at h ⊢
  refine fun j => ⟨fun hx => ((h j).listed (by rw [← hsess]; exact hx)).congr (by rw [hsess]), fun l hx => ?_,
    fun e hx => (he j e hx).congr (by rw [hsess]) rfl⟩
  refine ((h j).lease l ?_).congr (by rw [hsess]) (by rw [hsess])
  unfold State.leaseOf at hx ⊢
  rwa [hl] at hx

theorem deed_keeps_tier {o o' : Owed} (h : Deed o s o' t) (hc : s.CoherentBut o.unsettled) (hs : s.TierLaw) : t.TierLaw := by
  cases h with
  | frame h => exact hs.alike h
  | turn h => exact turn_keeps_tier h hc hs
  | mode | limits | tested | policy | abandon | begin | shrink =>
    exact tierLaw_iff.2 fun j => (tierLaw_iff.1 hs j).congr rfl rfl rfl rfl
  | drop k _ => exact hs.dropLease
  | relet k l l' hl _ ht =>
    obtain ⟨hlisted, hlaw⟩ := hs.listed_of_lease hc hl
    exact hs.setLease (ht hlisted hlaw).1
  | kept k u d l hl _ ht =>
    obtain ⟨hlisted, hlaw⟩ := hs.listed_of_lease hc hl
    exact hs.endLowerKept hl (ht hlisted hlaw).1
  | tick => exact hs.tick
  | grant e he _ ht _ => exact hs.grant hc he ht
  | leave k => exact hs.removeEntry
  | join e he _ _ ht =>
    refine hs.requeue rfl rfl fun j x hx => ?_
    rw [entryOf_joinEntry he] at hx
    split at hx
    · subst_vars; cases hx; exact ht
    · exact (tierLaw_iff.1 hs j).entry x hx
  | retier k g w l h =>
    refine hs.requeue rfl rfl fun j x hx => ?_
    rw [entryOf_retier] at hx
    obtain ⟨x', hx', rfl⟩ := Option.map_eq_some_iff.1 hx
    split
    · subst_vars; exact h
    · exact (tierLaw_iff.1 hs j).entry x' hx'

end Sys2Proof.Machine
end

section
/-! PROOFS. Committed plus earmark stays within available outside SHEDDING: every deed keeps it where the counters, the blocks and the
tiers are lawful (R8, R70). -/

namespace Sys2Proof.Machine

variable {s t : State} {k : Slot}

/-- Without a reclaim nothing is set aside (R65). -/
theorem State.EarmarkLaw.of_none (h : s.EarmarkLaw) (hr : s.alloc.reclaim = none) : s.alloc.earmark = 0 := by
  unfold State.EarmarkLaw at h
  rwa [hr] at h

/-! ### What each change adds to committed plus earmark -/

/-- Committed plus earmark has not risen, and no reclaim has begun. -/
theorem State.BudgetBut.mono {b : Bool} (h : s.BudgetBut b) (hs : t.alloc.state = s.alloc.state)
    (hr : s.alloc.reclaim = none → t.alloc.reclaim = none) (ha : t.available = s.available)
    (hle : t.alloc.committed + t.alloc.earmark ≤ s.alloc.committed + s.alloc.earmark) : t.BudgetBut b where
  shedding hx := hr (h.shedding (by rw [← hs]; exact hx))
  within hx hb := by
    rw [ha]; exact hle.trans (h.within (by rw [← hs]; exact hx) hb)

theorem State.BudgetBut.alike {b : Bool} (h : s.BudgetBut b) (ha : s.Alike t) : t.BudgetBut b :=
  h.mono ha.mode (by rw [ha.reclaim]; exact id) ha.available (by rw [ha.committed, ha.earmark])

/-- Of a lease that takes no more than the slot's lease did, committed falls by what it takes less (R4). -/
theorem committed_setLease_of_le {l : Option Lease} (h : s.CommittedLaw) (hl : Lease.term l ≤ Lease.term (s.leaseOf k)) :
    (s.setLease k l).alloc.committed + (s.commitment k - (s.setLease k l).commitment k) = s.alloc.committed := by
  have hle := h.le k
  have hc := committed_setLease (s := s) (k := k) (l := l)
  have hn : (s.setLease k l).commitment k = max (s.floorOf k) (Lease.term l) := by rw [commitment_setLease, if_pos rfl]
  have ho : s.commitment k = max (s.floorOf k) (Lease.term (s.leaseOf k)) := rfl
  rw [hc, hn]
  omega

/-- The credit adds at most the fall to the earmark, and begins no reclaim (R60). -/
theorem creditVictim_le (f : Nat) : (s.creditVictim k f).alloc.earmark ≤ s.alloc.earmark + f ∧
    (s.alloc.reclaim = none → (s.creditVictim k f).alloc.reclaim = none) := by
  unfold State.creditVictim
  split
  · exact ⟨Nat.le_add_right _ _, id⟩
  · rename_i r hr
    split
    · exact ⟨by dsimp only; omega, fun h => by rw [hr] at h; cases h⟩
    · exact ⟨Nat.le_add_right _ _, id⟩

theorem State.BudgetBut.setLease {b : Bool} {l : Option Lease} (h : s.BudgetBut b) (hc : s.CommittedLaw)
    (hl : Lease.term l ≤ Lease.term (s.leaseOf k)) : (s.setLease k l).BudgetBut b := by
  refine h.mono rfl id rfl ?_
  have := committed_setLease_of_le hc hl
  rw [State.setLease_alloc_earmark]
  omega

theorem State.BudgetBut.endLower {b : Bool} {l : Option Lease} (h : s.BudgetBut b) (hc : s.CommittedLaw)
    (hl : Lease.term l ≤ Lease.term (s.leaseOf k)) :
    ((s.setLease k l).creditVictim k (s.commitment k - (s.setLease k l).commitment k)).BudgetBut b := by
  have hfall := committed_setLease_of_le hc hl
  generalize s.commitment k - (s.setLease k l).commitment k = f at *
  have ho := onlyAt_creditVictim (s := s.setLease k l) (k := k) (n := f)
  obtain ⟨hearmark, hreclaim⟩ := creditVictim_le (s := s.setLease k l) (k := k) f
  have hcommitted := (creditVictim_frame (s := s.setLease k l) (k := k) (n := f)).2.2.2.2.2.1
  refine h.mono ho.state hreclaim ?_ ?_
  · unfold State.available; rw [ho.settings]; rfl
  · rw [State.setLease_alloc_earmark] at hearmark
    omega

theorem State.BudgetBut.dropLease {b : Bool} (h : s.BudgetBut b) (hc : s.CommittedLaw) : (s.dropLease k).BudgetBut b := by
  have hl : Lease.term none ≤ Lease.term (s.leaseOf k) := Nat.zero_le _
  unfold State.dropLease
  split
  · exact h
  · dsimp only
    split
    · exact (h.endLower hc hl).mono rfl id rfl le_rfl
    · exact (h.setLease hc hl).mono rfl id rfl le_rfl

theorem State.BudgetBut.endLowerKept {b : Bool} {u d : Nat} {l : Lease} (h : s.BudgetBut b) (hc : s.CommittedLaw)
    (hl : s.leaseOf k = some l) (hd : d ≤ l.draw) : (s.endLowerKept k u d).BudgetBut b := by
  unfold State.endLowerKept
  rw [hl]
  refine (h.endLower hc (l := some { l with tier := u, draw := d, trans := none }) ?_).mono rfl id rfl le_rfl
  rw [hl]
  exact max_le_max hd (Nat.zero_le _)

theorem available_removeEntry : (s.removeEntry k).available = s.available := by
  unfold State.available; rw [(onlyAt_removeEntry (s := s) (k := k)).settings]

theorem State.BudgetBut.removeEntry {b : Bool} (h : s.BudgetBut b) : (s.removeEntry k).BudgetBut b := by
  have hc := (removeEntry_frame (s := s) (k := k)).2.2.2.2.2
  refine h.mono (onlyAt_removeEntry (s := s) (k := k)).state (fun hn => ?_) available_removeEntry ?_
  · rcases removeEntry_reclaim_cases (s := s) (k := k) with ⟨hr, _⟩ | ⟨⟨hr, _⟩, _⟩
    · exact hr
    · rw [hr, hn]
  · rcases removeEntry_reclaim_cases (s := s) (k := k) with ⟨_, he⟩ | ⟨⟨_, he⟩, _⟩
    · rw [hc, he]; exact Nat.add_le_add_left (Nat.zero_le _) _
    · rw [hc, he]

/-! ### A grant -/

/-- What the lease of a grant takes: the granted tier's draw, and what the slot's lease took already. -/
theorem letGrant_committed {n : Nat} {g : EntryOrigin} {b : Bool} (hl : ∀ l, s.leaseOf k = some l → l.trans = none) :
    (s.letGrant k n g b).alloc.committed = s.alloc.committed + max (s.commitment k) (max (s.floorOf k) (s.drawOf k n)) - s.commitment k := by
  cases h : s.leaseOf k with
  | some l =>
    have hterm : Lease.term (s.leaseOf k) = l.draw := by
      rw [h]; show max l.draw (Transition.raiseDraw l.trans) = _
      rw [hl l h]; exact Nat.max_zero _
    rw [letGrant_some h]
    show (s.setLease k (some { l with trans := some (.raise n (s.drawOf k n) g) })).alloc.committed = _
    rw [committed_setLease]
    show s.alloc.committed + max (s.floorOf k) (max l.draw (s.drawOf k n)) - _ = _
    have hc : s.commitment k = max (s.floorOf k) l.draw := by unfold State.commitment; rw [hterm]
    rw [hc]
    omega
  | none =>
    rw [letGrant_none h]
    show (s.setLease k (some { tag := (s.sessOf k).tag, tier := n, draw := s.drawOf k n, short := b, trans := none })).alloc.committed = _
    rw [committed_setLease]
    show s.alloc.committed + max (s.floorOf k) (max (s.drawOf k n) 0) - _ = _
    have hc : s.commitment k = max (s.floorOf k) 0 := by unfold State.commitment; rw [h]; rfl
    rw [hc]
    omega

/-- What the beneficiary may use, and what stays free for the others, is free after its entry has left (R39, R61). -/
theorem budgetFor_removeEntry {e : Entry} (he : s.entryOf k = some e) :
    s.budgetFor k = (s.available : Int) - s.alloc.committed - (s.removeEntry k).alloc.earmark := by
  obtain ⟨hsame, hgone⟩ := removeEntry_reclaim (s := s) (k := k)
  unfold State.budgetFor State.free
  split
  · rename_i hb
    rw [(hgone (by rw [he]; rfl) hb).2]; omega
  · rename_i hb
    rw [(hsame (.inl (by simpa using hb))).2]

theorem State.BudgetBut.grant {e : Entry} (h : s.BudgetBut false) (hc : s.CommittedLaw) (he : s.entryOf e.slot = some e)
    (hel : s.eligible e.slot = true) (ht : s.grantTier e ≠ 0) (hs : s.alloc.state ≠ .shedding) :
    (s.grant e (s.grantTier e)).BudgetBut false := by
  refine State.BudgetBut.alike ?_ (grant_alike he)
  obtain ⟨_, _, _, hfit⟩ := grantTier_spec ht
  generalize s.grantTier e = n at *
  obtain ⟨f1, f2, f3, _, f5, _⟩ := letGrant_frame (s := s.removeEntry e.slot) (k := e.slot) (n := n) (g := e.origin)
    (b := decide (n < e.wanted))
  have hmode : (s.removeEntry e.slot).alloc.state = s.alloc.state := (onlyAt_removeEntry (s := s) (k := e.slot)).state
  obtain ⟨hsess, _, _, _, hleases, hcommitted⟩ := removeEntry_frame (s := s) (k := e.slot)
  have hcommit : (s.removeEntry e.slot).commitment = s.commitment := commitment_congr (by rw [cmd_removeEntry]) hleases
  have hfloor : (s.removeEntry e.slot).floorOf e.slot = s.floorOf e.slot := by
    unfold State.floorOf State.policyOf; rw [cmd_removeEntry]
  have hdraw : (s.removeEntry e.slot).drawOf e.slot n = s.drawOf e.slot n :=
    drawOf_congr (by unfold State.sessOf; rw [hsess]) n
  have hm := letGrant_committed (s := s.removeEntry e.slot) (k := e.slot) (n := n) (g := e.origin) (b := decide (n < e.wanted))
    (fun l hl => eligible_trans hel ((leaseOf_removeEntry _).symm.trans hl))
  rw [hcommit, hfloor, hdraw, hcommitted] at hm
  refine ⟨fun hx => absurd (by rw [← hmode, ← f3]; exact hx) hs, fun _ _ => ?_⟩
  have hle := hc.le e.slot
  have hold := (h.removeEntry (k := e.slot)).within (by rw [hmode]; exact hs) rfl
  rw [available_removeEntry, hcommitted] at hold
  rw [budgetFor_removeEntry he] at hfit
  unfold State.need at hfit
  have havail : ((s.removeEntry e.slot).letGrant e.slot n e.origin (decide (n < e.wanted))).available = s.available := by
    unfold State.available State.settings; rw [f5, cmd_removeEntry]
  rw [havail, hm, f1]
  omega

/-! ### Every deed -/

theorem deed_keeps_budget {o o' : Owed} (h : Deed o s o' t) (hn : s.Counted) (hc : s.CoherentBut o.unsettled) (ht : s.TierLaw)
    (hs : s.BudgetBut o.untested) : t.BudgetBut o'.untested := by
  cases h with
  | frame h => exact hs.alike h
  | turn h =>
    obtain ⟨ha, hcmd, _⟩ := h.same
    exact hs.mono (by rw [ha]) (by rw [ha]; exact id) (by unfold State.available State.settings; rw [hcmd]) (by rw [ha])
  | mode a h1 h2 =>
    refine ⟨h1, fun hx hb => ?_⟩
    show s.alloc.committed + s.alloc.earmark ≤ s.available
    by_cases hm : s.alloc.state = .shedding
    · rw [hn.earmark.of_none (hs.shedding hm)]
      exact (h2 hx).resolve_left (fun hne => hne hm)
    · exact hs.within hm hb
  | limits f => exact ⟨hs.shedding, fun _ hb => by cases hb⟩
  | tested h =>
    refine ⟨hs.shedding, fun hx _ => ?_⟩
    rcases h.resolve_left hx with h | ⟨hr, h⟩
    · exact h
    · rw [hn.earmark.of_none hr]; exact h
  | policy k r h =>
    obtain ⟨_, _, hfit⟩ := applyCheck_ok h
    have hle := hn.committed.le k
    refine ⟨hs.shedding, fun hx hb => ?_⟩
    have hold := hs.within hx hb
    show (s.setPolicy k r).alloc.committed + s.alloc.earmark ≤ s.available
    rw [committed_setPolicy]
    unfold State.free at hfit
    by_cases hrise : s.commitment k < max r.floorTerm (Lease.term (s.leaseOf k))
    · have := (hfit hrise).1
      omega
    · omega
  | drop k _ => exact hs.dropLease hn.committed
  | relet k l l' hl _ hterm =>
    obtain ⟨hlisted, hlaw⟩ := ht.listed_of_lease hc hl
    exact hs.setLease hn.committed (by rw [hl]; exact (hterm hlisted hlaw).2)
  | kept k u d l hl _ hterm =>
    obtain ⟨hlisted, hlaw⟩ := ht.listed_of_lease hc hl
    exact hs.endLowerKept hn.committed hl (hterm hlisted hlaw).2
  | tick | join | retier => exact hs.mono rfl id rfl le_rfl
  | grant e he hel hg hx => exact hs.grant hn.committed he hel hg hx
  | leave k => exact hs.removeEntry
  | abandon => exact hs.mono rfl (fun _ => rfl) rfl (Nat.add_le_add_left (Nat.zero_le _) _)
  | begin r _ hx _ _ _ => exact ⟨fun hm => absurd hm hx, hs.within⟩
  | shrink r n h _ =>
    exact hs.mono rfl (fun hx => by rw [h] at hx; cases hx) rfl (Nat.add_le_add_left (Nat.min_le_left _ _) _)

/-! ### Any number of deeds -/

/-- `t` is reached from `s`, where nothing was owed, by deeds after which `o` is owed. -/
inductive Deeds (s : State) : Owed → State → Prop
  | refl : Deeds s .nothing s
  | tail {o o' : Owed} {t u : State} (h : Deeds s o t) (d : Deed o t o' u) : Deeds s o' u

theorem deeds_keep_counted {o : Owed} (h : Deeds s o t) (hs : s.Counted) : t.Counted := by
  induction h with
  | refl => exact hs
  | tail _ d ih => exact deed_keeps_counted d ih

theorem deeds_keep_coherent {o : Owed} (h : Deeds s o t) (hs : s.Coherent) : t.CoherentBut o.unsettled := by
  induction h with
  | refl => exact coherentBut_empty.2 hs
  | tail _ d ih => exact deed_keeps_coherent d ih

theorem deeds_keep_tier {o : Owed} (h : Deeds s o t) (hc : s.Coherent) (hs : s.TierLaw) : t.TierLaw := by
  induction h with
  | refl => exact hs
  | tail h d ih => exact deed_keeps_tier d (deeds_keep_coherent h hc) ih

theorem deeds_keep_budget {o : Owed} (h : Deeds s o t) (hn : s.Counted) (hc : s.Coherent) (ht : s.TierLaw) (hs : s.BudgetLaw) :
    t.BudgetBut o.untested := by
  induction h with
  | refl => exact budgetBut_false.2 hs
  | tail h d ih =>
    exact deed_keeps_budget d (deeds_keep_counted h hn) (deeds_keep_coherent h hc) (deeds_keep_tier h hc ht) ih

theorem startDone_removeEntry : (s.removeEntry k).store = s.store := (onlyAt_removeEntry (s := s) (k := k)).host.2.2.1

/-- No deed ends or begins the load. -/
theorem deed_keeps_startDone {o o' : Owed} (h : Deed o s o' t) : t.store.startDone = s.store.startDone := by
  cases h with
  | frame h => exact h.startDone
  | turn h => rw [h.same.2.2]
  | drop k _ => rw [(onlyAt_dropLease (s := s) (k := k)).host.2.2.1]
  | kept k u d l _ _ _ => rw [(onlyAt_endLowerKept (s := s) (k := k) (u := u) (d := d)).host.2.2.1]
  | leave k => rw [startDone_removeEntry]
  | grant e he _ _ _ =>
    rw [(grant_alike he).startDone, letGrant_frame.2.2.2.2.2, startDone_removeEntry]
  | mode | limits | tested | policy | relet | tick | join | retier | abandon | begin | shrink => rfl

theorem deeds_keep_startDone {o : Owed} (h : Deeds s o t) : t.store.startDone = s.store.startDone := by
  induction h with
  | refl => rfl
  | tail _ d ih => exact (deed_keeps_startDone d).trans ih

end Sys2Proof.Machine
end

section
/-! PROOFS. The shared operations as deeds: entries, claims, leases, sessions, recalls, the pass and shedding. -/

namespace Sys2Proof.Machine

variable {s t u : State} {o : Owed} {k : Slot} {b : Bool}

/-! ### What the operations leave of a session -/

theorem state_teardown {c : Reason} {st : SessState} : ((s.teardown k c st).sessOf k).state = st := by
  unfold State.teardown; dsimp only
  split <;> simp [sessOf_enter]

theorem sessOf_removeEntry (j : Slot) : (s.removeEntry k).sessOf j = s.sessOf j := by
  unfold State.sessOf; rw [(removeEntry_frame (s := s) (k := k)).1]

theorem sessOf_denyEntry {r : Reason} (j : Slot) : (s.denyEntry k r).sessOf j = s.sessOf j := by
  unfold State.denyEntry
  split
  · rfl
  · dsimp only; split
    · unfold State.sessOf State.abandonReclaim; rw [endReclaim_frame.1]; rfl
    · rfl

/-- A session that settles on an enabled slot stands in STANDBY. -/
theorem state_settle (h : (s.policyOf k).enabled = true) : ((s.settle k).sessOf k).state = .standby := by
  unfold State.settle; rw [if_pos h]; dsimp only
  split
  · rw [sessOf_enter]
  · rw [sessOf_denyEntry, sessOf_enter]

/-! ### The leaving of an entry, in every form it takes -/

theorem reclaim_endReclaim (n : Nat) : (s.endReclaim n).alloc.reclaim = none := by
  unfold State.endReclaim; split
  · assumption
  · rfl

/-- The end of a reclaim after updates that no law looks at. -/
theorem State.Alike.endReclaim (h : s.Alike t) (n m : Nat) : (s.endReclaim n).Alike (t.endReclaim m) := by
  obtain ⟨h1, h2, h3, h4, h5, h6, h7, h8, h9, h10, h11, h12, h13⟩ := h
  unfold State.endReclaim
  cases hr : s.alloc.reclaim with
  | none => rw [h5, hr]; exact ⟨h1, h2, h3, h4, h5, h6, h7, h8, h9, h10, h11, h12, h13⟩
  | some r => rw [h5, hr]; exact ⟨h1, rfl, h3, h4, rfl, h6, h7, h8, h9, h10, h11, h12, h13⟩

theorem denyEntry_alike {r : Reason} : (s.removeEntry k).Alike (s.denyEntry k r) := by
  unfold State.removeEntry State.denyEntry
  cases s.entryOf k with
  | none => exact .refl _
  | some e =>
    dsimp only
    have h : ((s.unqueue k).wantPass true).Alike
        ((((s.unqueue k).wantPass true).modLine k (Line.queueClaim (.deny r))).post .denied (some k) r e.wanted) :=
      .of_eq _ _ rfl rfl rfl rfl rfl rfl
    split
    · exact h.endReclaim _ _
    · exact h

/-- A refused claim leaves no entry of its slot (R29). -/
theorem refuseClaim_alike {g : EntryOrigin} {r : Reason} {w : Nat} : (s.removeEntry k).Alike (s.refuseClaim k g r w) := by
  have hline : ∀ (p : Prop) [Decidable p] (f : Line → Line) (v : State),
      v.Alike ((if p then v else v.modLine k f).post .denied (some k) r w) := by
    intro p _ f v
    split <;> exact .of_eq _ _ rfl rfl rfl rfl rfl rfl
  unfold State.removeEntry State.refuseClaim
  cases s.entryOf k with
  | none =>
    simp only [Option.isSome_none, Bool.and_false, Bool.false_eq_true, if_false]
    exact hline _ _ _
  | some e =>
    simp only [Option.isSome_some, Bool.and_true, if_true]
    split
    · exact (hline _ _ _).endReclaim _ _
    · exact hline _ _ _

/-- The leaving of an entry looks at the Allocator only. -/
theorem removeEntry_alloc_congr (h : t.alloc = s.alloc) : (t.removeEntry k).alloc = (s.removeEntry k).alloc := by
  have hend : ∀ u v : State, u.alloc = v.alloc → (u.endReclaim 2).alloc = (v.endReclaim 2).alloc := by
    intro u v huv
    unfold State.endReclaim; rw [huv]; split
    · exact huv
    · rfl
  have hu : ((t.unqueue k).wantPass true).alloc = ((s.unqueue k).wantPass true).alloc := by
    unfold State.unqueue State.withQueue State.wantPass; rw [h]
  have hb : t.isBeneficiary k = s.isBeneficiary k := by unfold State.isBeneficiary; rw [h]
  have he : t.entryOf k = s.entryOf k := entryOf_eq_of_queue (by rw [h])
  unfold State.removeEntry
  rw [he, hb]
  split
  · exact h
  · dsimp only; split
    · exact hend _ _ hu
    · exact hu

/-- The leaving of an entry and a change of the session go either way round. -/
theorem removeEntry_comm {f : State → State} (ha : ∀ v, (f v).alloc = v.alloc) (hc : ∀ v, (f v).cmd = v.cmd)
    (hs : ∀ v w : State, v.sess = w.sess → (f v).sess = (f w).sess) (hp : ∀ v w : State, v.power = w.power → (f v).power = (f w).power)
    (hd : ∀ v, (f v).store = v.store) : (f (s.removeEntry k)).Alike ((f s).removeEntry k) := by
  obtain ⟨h1, _, h3, _⟩ := removeEntry_frame (s := s) (k := k)
  obtain ⟨g1, _, g3, _⟩ := removeEntry_frame (s := f s) (k := k)
  refine .of_eq ((f s).removeEntry k).alloc.passDue ((f s).removeEntry k).alloc.sagCondition ?_ ?_ ?_ ?_ ?_ ?_
  · rw [removeEntry_alloc_congr (ha s), ha]
  · rw [cmd_removeEntry, hc, hc, cmd_removeEntry]
  · rw [cmd_removeEntry, hc, hc, cmd_removeEntry]
  · rw [g1, hs _ _ h1]
  · rw [g3, hp _ _ h3]
  · rw [startDone_removeEntry, hd, hd, startDone_removeEntry]

namespace Deeds

/-! ### Updates that no law looks at -/

theorem to_alike (h : Deeds s o t) (ha : t.Alike u) : Deeds s o u := h.tail (.frame ha)

theorem to_same (h : Deeds s o t) (ha : u.alloc = t.alloc) (hc : u.cmd = t.cmd) (hs : u.sess = t.sess) (hp : u.power = t.power)
    (hd : u.store = t.store) : Deeds s o u :=
  h.to_alike (.of_eq t.alloc.passDue t.alloc.sagCondition ha (by rw [hc]) (by rw [hc]) hs (by rw [hp]) (by rw [hd]))

theorem to_modLine (h : Deeds s o t) {f : Line → Line} : Deeds s o (t.modLine k f) := h.to_same rfl rfl rfl rfl rfl
theorem to_modMon (h : Deeds s o t) {f : MonSlot → MonSlot} : Deeds s o (t.modMon k f) := h.to_same rfl rfl rfl rfl rfl
theorem to_modHost (h : Deeds s o t) {f : HostPort → HostPort} : Deeds s o (t.modHost f) := h.to_same rfl rfl rfl rfl rfl
theorem to_drive (h : Deeds s o t) {w : Word} : Deeds s o (t.drive w) := h.to_same rfl rfl rfl rfl rfl
theorem to_taken (h : Deeds s o t) {c : Instr} : Deeds s o (t.taken c) := h.to_same rfl rfl rfl rfl rfl
theorem to_raised (h : Deeds s o t) {l : List Instr} : Deeds s o { t with raised := l } := h.to_same rfl rfl rfl rfl rfl
theorem to_post (h : Deeds s o t) {n : NoticeKind} {p : Option Slot} {r : Reason} {v : Nat} : Deeds s o (t.post n p r v) :=
  h.to_same rfl rfl rfl rfl rfl
theorem to_wantPass (h : Deeds s o t) {p : Bool} : Deeds s o (t.wantPass p) := h.to_alike (.of_eq _ _ rfl rfl rfl rfl rfl rfl)
theorem to_complete (h : Deeds s o t) {r : CmdResult} : Deeds s o (t.complete r) := h.to_alike (.of_eq _ _ rfl rfl rfl rfl rfl rfl)

/-- A change of a session outside state, admission flag and descriptor. -/
theorem to_modSess (h : Deeds s o t) {f : Session → Session} (hf : ∀ x, (f x).phase = x.phase) : Deeds s o (t.modSess k f) := by
  refine h.to_alike ⟨rfl, rfl, rfl, rfl, rfl, fun _ => rfl, rfl, rfl, fun j => ?_, fun _ => rfl, rfl, rfl, rfl⟩
  rw [State.sessOf_modSess]; split
  · subst_vars; exact hf _
  · rfl

/-- A change of the settings outside SUPPLY_LIMIT and RESERVE. -/
theorem to_modSettings (h : Deeds s o t) {f : Settings → Settings}
    (hf : (f t.settings).supplyLimit = t.settings.supplyLimit ∧ (f t.settings).reserve = t.settings.reserve) :
    Deeds s o (t.modSettings f) := by
  refine h.to_alike ⟨rfl, rfl, rfl, rfl, rfl, fun _ => rfl, rfl, ?_, fun _ => rfl, fun _ => rfl, rfl, rfl, rfl⟩
  show (f t.settings).supplyLimit - (f t.settings).reserve = _
  rw [hf.1, hf.2]; rfl

theorem to_modStore (h : Deeds s o t) {f : PolicyStore → PolicyStore} (hf : (f t.store).startDone = t.store.startDone) :
    Deeds s o (t.modStore f) :=
  h.to_alike (.of_eq t.alloc.passDue t.alloc.sagCondition rfl rfl rfl rfl rfl hf)

/-! ### Entries and claims -/

theorem to_endReclaim (h : Deeds s o t) {n : Nat} : Deeds s o (t.endReclaim n) := by
  unfold State.endReclaim; split
  · exact h
  · exact (h.tail .abandon).to_alike (.of_eq _ _ rfl rfl rfl rfl rfl rfl)

theorem to_abandonReclaim (h : Deeds s o t) : Deeds s o t.abandonReclaim := h.to_endReclaim

theorem to_removeEntry (h : Deeds s o t) : Deeds s o (t.removeEntry k) := h.tail (.leave k)

theorem to_denyEntry (h : Deeds s o t) {r : Reason} : Deeds s o (t.denyEntry k r) := h.to_removeEntry.to_alike denyEntry_alike

theorem to_refuseClaim (h : Deeds s o t) {g : EntryOrigin} {r : Reason} {w : Nat} : Deeds s o (t.refuseClaim k g r w) :=
  h.to_removeEntry.to_alike refuseClaim_alike

end Deeds

/-- A claim that passes the checks has tiers of the list, and the admission flag is set (R27). -/
theorem admission_none {w l : Nat} (h : s.admission k w l = none) :
    (1 ≤ l ∧ l ≤ w ∧ w ≤ s.tiersOf k) ∧ (s.sessOf k).admitFlag = true := by
  unfold State.admission at h
  split at h
  · cases h
  split at h
  · cases h
  rename_i h1 h2
  exact ⟨by omega, by simpa using h2⟩

namespace Deeds

theorem to_lowerShortfall (h : Deeds s o t) {e : Entry} : Deeds s o (t.lowerShortfall e) := by
  unfold State.lowerShortfall; split
  · exact h
  · rename_i r hr
    exact h.tail (.shrink r _ hr (Nat.le_max_left 1 _))

theorem to_takeClaim (h : Deeds s o t) {g : EntryOrigin} {w l : Nat} (hs : (t.sessOf k).state = .on ∨ (t.sessOf k).state = .standby) :
    Deeds s o (t.takeClaim k g w l) := by
  unfold State.takeClaim
  split
  · rename_i he
    split
    · exact h.to_refuseClaim
    · rename_i ha
      obtain ⟨htiers, hflag⟩ := admission_none ha
      exact to_post (to_wantPass (h.tail (.join
        { slot := k, tag := (t.sessOf k).tag, origin := g, wanted := w, least := l, cls := (t.policyOf k).cls,
          rank := (t.policyOf k).rank, passCount := 0 } he hs hflag htiers)))
  · rename_i old he
    dsimp only
    generalize (if g = .restore then max old.wanted w else w) = w'
    split
    · exact h.to_refuseClaim
    · rename_i ha
      have hput := (h.tail (.retier k g w' l (admission_none ha).1)).to_wantPass (p := true)
      split
      · exact hput.to_post
      · split
        · exact hput.to_post.to_abandonReclaim
        · exact hput.to_post.to_lowerShortfall

theorem to_restore (h : Deeds s o t) {n : Nat} (hs : (t.sessOf k).state = .on ∨ (t.sessOf k).state = .standby) :
    Deeds s o (t.restore k n) := by
  unfold State.restore; split
  · exact h.to_takeClaim hs
  · exact h

theorem to_bringup (h : Deeds s o t) (hs : (t.sessOf k).state = .on ∨ (t.sessOf k).state = .standby) : Deeds s o (t.bringup k) := by
  unfold State.bringup; split
  · exact h
  · exact h.to_takeClaim hs

/-! ### The end of a lease, the end of a session -/

theorem to_dropLease (h : Deeds s o t) (hk : (t.leaseOf k).isSome = true ∨ (t.sessOf k).state.leased = true) :
    Deeds s { o with unsettled := insert k o.unsettled } (t.dropLease k) := h.tail (.drop k hk)

theorem to_close (h : Deeds s o t) {f : Session → Session} {st : SessState} (hst : st.isOpen = false)
    (hk : (t.sessOf k).state.isOpen = false ∨
      t.entryOf k = none ∧ (k ∈ o.unsettled ∨ t.leaseOf k = none ∨ (t.sessOf k).state = .standby)) :
    Deeds s { o with unsettled := o.unsettled.erase k } ((t.modSess k f).enter k st) := h.tail (.turn (.close k f st hst hk))

theorem to_teardown (h : Deeds s o t) {c : Reason} {st : SessState} (hst : st.isOpen = false)
    (hk : k ∈ o.unsettled ∨ t.leaseOf k = none ∨ (t.sessOf k).state = .standby) :
    Deeds s { o with unsettled := o.unsettled.erase k } (t.teardown k c st) := by
  have hclosed := h.to_removeEntry (k := k) |>.to_close (k := k) (st := st)
    (f := fun x => { x with admitFlag := false, lastEnd := c, desc := if st = .faulted then x.desc else none }) hst
    (.inr ⟨entryOf_removeEntry_self, by rw [leaseOf_removeEntry, sessOf_removeEntry]; exact hk⟩)
  unfold State.teardown; dsimp only
  split <;> exact hclosed.to_same rfl rfl rfl rfl rfl

theorem to_endSession (h : Deeds s o t) {c : Reason} {st : SessState} (hst : st.isOpen = false)
    (hk : k ∈ o.unsettled ∨ t.leaseOf k = none ∨ (t.sessOf k).state = .standby) :
    Deeds s { o with unsettled := o.unsettled.erase k } (t.endSession k c st) := (h.to_teardown hst hk).to_post

/-- The session of a slot whose lease has been dropped settles (R53). -/
theorem to_settle (h : Deeds s o t) (hk : k ∈ o.unsettled) : Deeds s { o with unsettled := o.unsettled.erase k } (t.settle k) := by
  unfold State.settle; split
  · dsimp only; split
    · rename_i ha
      rw [sessOf_enter] at ha
      exact h.tail (.turn (.stand k hk (.inl ha)))
    · refine to_alike ?_ ((removeEntry_comm (f := State.enter k .standby) (fun _ => rfl) (fun _ => rfl) (fun v w hvw => ?_)
        (fun v w hvw => ?_) (fun _ => rfl)).trans denyEntry_alike)
      · exact h.to_removeEntry.tail (.turn (.stand k hk (.inr entryOf_removeEntry_self)))
      · show v.sess.set k _ = w.sess.set k _; rw [hvw]
      · unfold State.enter State.modLine State.modRamp State.modSess; dsimp only; rw [hvw]
  · exact h.to_endSession rfl (.inl hk)

/-- What is owed once slot `k`, the only one unsettled, has settled. -/
theorem settled_alone : ({ unsettled := (insert k (∅ : Finset Slot)).erase k, untested := b } : Owed) = ⟨∅, b⟩ := by
  rw [Finset.erase_insert (Finset.notMem_empty k)]

theorem settleDropped (h : Deeds s ⟨insert k ∅, b⟩ t) : Deeds s ⟨∅, b⟩ (t.settle k) := by
  have := h.to_settle (Finset.mem_insert_self k ∅)
  rwa [settled_alone] at this

theorem endSessionDropped (h : Deeds s ⟨insert k ∅, b⟩ t) {c : Reason} {st : SessState} (hst : st.isOpen = false) :
    Deeds s ⟨∅, b⟩ (t.endSession k c st) := by
  have := h.to_endSession (c := c) hst (.inl (Finset.mem_insert_self k ∅))
  rwa [settled_alone] at this

theorem endSessionStandby (h : Deeds s ⟨∅, b⟩ t) {c : Reason} {st : SessState} (hst : st.isOpen = false)
    (hk : (t.sessOf k).state = .standby) : Deeds s ⟨∅, b⟩ (t.endSession k c st) := by
  have := h.to_endSession (c := c) hst (.inr (.inr hk))
  rwa [Finset.erase_empty] at this

/-- Lease and session of slot `k` end together, with updates `f` between them that no law looks at. -/
theorem to_dropTeardown (h : Deeds s ⟨∅, b⟩ t) {f : State → State} (hf : ∀ {o : Owed} {u : State}, Deeds s o u → Deeds s o (f u))
    (hl : ∀ u, (f u).leaseOf k = u.leaseOf k) {c : Reason} {st : SessState} (hst : st.isOpen = false) :
    Deeds s ⟨∅, b⟩ ((f (t.dropLease k)).teardown k c st) := by
  by_cases hk : (t.leaseOf k).isSome = true
  · have := (hf (h.to_dropLease (.inl hk))).to_teardown (c := c) hst (.inl (Finset.mem_insert_self k ∅))
    rwa [settled_alone] at this
  · have hn : t.leaseOf k = none := by simpa using hk
    rw [dropLease_of_none hn]
    have := (hf h).to_teardown (k := k) (c := c) hst (.inr (.inl (by rw [hl]; exact hn)))
    rwa [Finset.erase_empty] at this

theorem to_faultSlot (h : Deeds s ⟨∅, b⟩ t) {c : Reason} : Deeds s ⟨∅, b⟩ (t.faultSlot k c) :=
  ((h.to_dropTeardown (f := id) (fun h => h) (fun _ => rfl) rfl).to_post).to_post

theorem settleRestoringAt (h : Deeds s o t) (hk : k ∈ o.unsettled) {n : Nat} :
    Deeds s { o with unsettled := o.unsettled.erase k } (t.settleRestoring k n) := by
  unfold State.settleRestoring; dsimp only; split
  · rename_i he
    exact (h.to_settle hk).to_restore (.inr (state_settle he))
  · exact h.to_settle hk

theorem to_settleRestoring (h : Deeds s ⟨insert k ∅, b⟩ t) {n : Nat} : Deeds s ⟨∅, b⟩ (t.settleRestoring k n) := by
  have := h.settleRestoringAt (Finset.mem_insert_self k ∅) (n := n)
  rwa [settled_alone] at this

theorem to_settleRecalled (h : Deeds s ⟨insert k ∅, b⟩ t) {g : RecallOrigin} {n : Nat} : Deeds s ⟨∅, b⟩ (t.settleRecalled k g n) := by
  unfold State.settleRecalled; split
  · exact h.to_settleRestoring
  · exact h.settleDropped

/-! ### Recall -/

/-- A lease loses its RAISE, or any transition but a LOWER (R16). -/
theorem to_cancelled {l : Lease} (h : Deeds s o t) (hl : t.leaseOf k = some l) (hv : l.lowering = false) :
    Deeds s o (t.setLease k (some { l with trans := none })) := by
  refine h.tail (.relet k l _ hl (fun hx => by rw [hv] at hx; cases hx) fun _ hlaw => ⟨?_, ?_⟩)
  · exact .of_plain hlaw.pos hlaw.le hlaw.draw rfl
  · show max l.draw 0 ≤ max l.draw (Transition.raiseDraw l.trans)
    rw [Nat.max_zero]; exact Nat.le_max_left _ _

end Deeds

theorem raising_lease (h : s.raising k = true) : ∃ l n d g, s.leaseOf k = some l ∧ l.trans = some (.raise n d g) := by
  unfold State.raising at h
  split at h
  · cases h
  · rename_i l hl
    split at h
    · rename_i n d g hx; exact ⟨l, n, d, g, hl, hx⟩
    · cases h
    · cases h

namespace Deeds

theorem to_cancelRaise (h : Deeds s o t) : Deeds s o (t.cancelRaise k) := by
  unfold State.cancelRaise; split
  · exact h
  · rename_i l hl
    split
    · rename_i hr
      obtain ⟨l', n, d, g, hl', hx⟩ := raising_lease hr
      rw [hl] at hl'; cases hl'
      exact (h.to_cancelled hl (by unfold Lease.lowering; rw [hx])).to_modLine
    · exact h

theorem to_completeRaise (h : Deeds s o t) {g : Byte} {p : Bool} : Deeds s o (t.completeRaise k g p) := by
  unfold State.completeRaise
  split
  · exact h
  · rename_i l hl
    split
    · rename_i n d r hx
      split
      · refine h.tail (.relet k l _ hl (fun hv => by unfold Lease.lowering at hv; rw [hx] at hv; cases hv) fun _ hlaw => ⟨?_, ?_⟩)
        · obtain ⟨_, h1, h2, h3⟩ := hlaw.trans _ hx
          exact .of_plain ((hlaw.pos.trans h1.le)) h2 h3 rfl
        · show max d 0 ≤ max l.draw (Transition.raiseDraw l.trans)
          rw [hx, Nat.max_zero]; exact Nat.le_max_right _ _
      · exact h
    · exact h
    · exact h

theorem to_putLower (h : Deeds s o t) {l : Lease} {n d : Nat} {g : RecallOrigin} (hl : t.leaseOf k = some l) (hn : n < l.tier)
    (hs : (t.sessOf k).state = .on) : Deeds s o (t.putLower k l n g d) := by
  refine to_post (to_modLine (h.tail (.relet k l _ hl (fun _ => rfl) fun _ hlaw => ⟨?_, ?_⟩)))
  · refine ⟨hlaw.pos, hlaw.le, hlaw.draw, fun x hx => ?_⟩
    cases hx
    exact ⟨hs, hn, rfl⟩
  · show max l.draw 0 ≤ max l.draw (Transition.raiseDraw l.trans)
    rw [Nat.max_zero]; exact Nat.le_max_left _ _

theorem to_recallOn (h : Deeds s o t) {n : Nat} {g : RecallOrigin} (hs : (t.sessOf k).state = .on) : Deeds s o (t.recallOn k n g) := by
  unfold State.recallOn
  split
  · exact h
  · rename_i l hl
    split
    · rename_i hn
      split
      · exact h.to_putLower hl ((Nat.min_le_right _ _).trans_lt hn) hs
      · exact h.to_putLower hl hn hs
      · exact h.to_putLower hl hn hs
    · exact h

theorem to_recallRamp (h : Deeds s ⟨∅, b⟩ t) {n : Nat} {g : RecallOrigin} (hs : (t.sessOf k).state.leased = true) :
    Deeds s ⟨∅, b⟩ (t.recallRamp k n g) := by
  unfold State.recallRamp; split
  · exact ((h.to_dropLease (.inr hs)).to_post).settleDropped
  · exact h

end Deeds

theorem sess_cancelRaise : (s.cancelRaise k).sess = s.sess := by
  unfold State.cancelRaise
  split
  · rfl
  · split <;> rfl

namespace Deeds

theorem to_recall (h : Deeds s ⟨∅, b⟩ t) {n : Nat} {g : RecallOrigin} : Deeds s ⟨∅, b⟩ (t.recall k n g) := by
  unfold State.recall
  split
  · rename_i hs
    exact h.to_cancelRaise.to_recallOn (by unfold State.sessOf; rw [sess_cancelRaise]; exact hs)
  · rename_i hs
    cases g with
    | host | policy => exact h.to_recallRamp (by rw [hs]; rfl)
    | preempt | shed | overdraw => exact h
  · rename_i hs
    cases g with
    | host | policy => exact h.to_recallRamp (by rw [hs]; rfl)
    | preempt | shed | overdraw => exact h
  all_goals exact h

/-- A LOWER ends with the lease kept at tier `u`, at or below its target (R18, R50, R51). -/
theorem to_endLowerKept (h : Deeds s o t) {l : Lease} {n d d' u left : Nat} {g : RecallOrigin} (hl : t.leaseOf k = some l)
    (hx : l.trans = some (.lower n d g left)) (hu : 1 ≤ u) (hun : u ≤ n) (hd : d' = t.drawOf k u ∨ u = n ∧ d' = d) :
    Deeds s o (t.endLowerKept k u d') := by
  refine h.tail (.kept k u d' l hl (by unfold Lease.lowering; rw [hx]) fun hlisted hlaw => ?_)
  obtain ⟨_, hn, hdn⟩ := hlaw.trans _ hx
  have hdraw : d' = t.drawOf k u := by
    rcases hd with hd | ⟨rfl, hd⟩
    · exact hd
    · rw [hd, hdn]
  have hle := hlaw.le
  refine ⟨⟨hu, by omega, hdraw⟩, ?_⟩
  rw [hdraw, hlaw.draw]
  exact hlisted.drawOf_mono (by omega) hlaw.le

theorem to_lowerAnswered (h : Deeds s ⟨∅, b⟩ t) {l : Lease} {n d u left : Nat} {g g' : RecallOrigin} (hl : t.leaseOf k = some l)
    (hx : l.trans = some (.lower n d g left)) (hu : u ≤ n) : Deeds s ⟨∅, b⟩ (t.lowerAnswered k u g') := by
  unfold State.lowerAnswered; split
  · exact ((h.to_dropLease (.inl (by rw [hl]; rfl))).to_post).to_settleRecalled
  · exact ((h.to_endLowerKept hl hx (by omega) hu (.inl rfl)).to_modLine).to_post

/-- The admission flag of slot `k` is cleared where that leaves no entry of a session in STANDBY. -/
theorem to_unadmit (h : Deeds s o t) (hk : t.entryOf k = none ∨ (t.leaseOf k).isSome = true) :
    Deeds s o (t.modSess k (fun x => { x with admitFlag := false })) := h.tail (.turn (.flag k false (.inr hk)))

theorem to_cutRecalled (h : Deeds s ⟨∅, b⟩ t) {g : RecallOrigin} (hl : (t.leaseOf k).isSome = true) :
    Deeds s ⟨∅, b⟩ (t.cutRecalled k g) :=
  (((h.to_unadmit (.inr hl)).to_dropLease (.inl hl)).to_post).to_settleRecalled

theorem to_lowerExpired (h : Deeds s ⟨∅, b⟩ t) {l : Lease} {n d left : Nat} {g g' : RecallOrigin} (hl : t.leaseOf k = some l)
    (hx : l.trans = some (.lower n d g left)) : Deeds s ⟨∅, b⟩ (t.lowerExpired k n d g') := by
  have hsome : (t.leaseOf k).isSome = true := by rw [hl]; rfl
  unfold State.lowerExpired; split
  · split
    · exact ((h.to_dropLease (.inl hsome)).to_post).to_settleRecalled
    · exact (h.to_endLowerKept hl hx (by omega) le_rfl (.inr ⟨rfl, rfl⟩)).to_post
  · exact h.to_cutRecalled hsome

/-! ### Shedding -/

theorem to_abortRamp (h : Deeds s ⟨∅, b⟩ t) : Deeds s ⟨∅, b⟩ (t.abortRamp k) := by
  unfold State.abortRamp
  split
  · rename_i hs
    exact ((h.to_dropLease (.inr (by rw [hs]; rfl))).to_post).to_settleRestoring
  · rename_i hs
    exact ((h.to_dropLease (.inr (by rw [hs]; rfl))).to_post).to_settleRestoring
  all_goals exact h

theorem to_carryOut (h : Deeds s ⟨∅, b⟩ t) {p : Slot × ShedChoice} : Deeds s ⟨∅, b⟩ (t.carryOut p) := by
  unfold State.carryOut; split
  · exact h.to_cancelRaise
  · exact h.to_recall
  · exact h.to_abortRamp

theorem foldl {α : Type} (f : State → α → State) (hf : ∀ {u : State} (a : α), Deeds s o u → Deeds s o (f u a)) (l : List α)
    (h : Deeds s o t) : Deeds s o (l.foldl f t) := by
  induction l generalizing t with
  | nil => exact h
  | cons a l ih => exact ih (hf a h)

theorem to_withMode (h : Deeds s o t) {a : AllocState} (h1 : a = .shedding → t.alloc.reclaim = none)
    (h2 : a ≠ .shedding → t.alloc.state ≠ .shedding ∨ t.alloc.committed ≤ t.available) : Deeds s o (t.withMode a) :=
  h.tail (.mode a h1 h2)

/-- The test for shedding settles what a change of available owes (R66). -/
theorem to_testShedding (h : Deeds s ⟨∅, true⟩ t) : Deeds s ⟨∅, false⟩ t.testShedding := by
  have hreclaim : t.abandonReclaim.alloc.reclaim = none := reclaim_endReclaim 2
  have habandon := h.to_abandonReclaim
  unfold State.testShedding
  split
  · rename_i hle
    exact h.tail (.tested (.inr (.inl hle)))
  · dsimp only
    generalize t.abandonReclaim = u at *
    split
    · rename_i hle
      exact (habandon.tail (.tested (.inr (.inr ⟨hreclaim, hle⟩)))).to_wantPass
    · refine foldl _ (fun _ hu => hu.to_carryOut) _ ?_
      split
      · rename_i hs
        exact habandon.tail (.tested (.inl hs))
      · exact to_post ((habandon.to_withMode (a := .shedding) (fun _ => hreclaim) (fun hx => absurd rfl hx)).tail (.tested (.inl rfl)))

theorem to_testShedEnd (h : Deeds s o t) : Deeds s o t.testShedEnd := by
  unfold State.testShedEnd; split
  · rename_i hc
    have hmode : ∀ a : AllocState, a ≠ .shedding → Deeds s o (t.withMode a) := fun a ha =>
      h.to_withMode (fun hx => absurd hx ha) (fun _ => .inr hc.2)
    dsimp only
    split
    · exact (hmode .sagHold (by decide)).to_alike (.of_eq _ _ rfl rfl rfl rfl rfl rfl)
    · exact (hmode .running (by decide)).to_alike (.of_eq _ _ rfl rfl rfl rfl rfl rfl)
  · exact h

end Deeds

/-! ### Reclaim -/

/-- A recall of an ON lease to a lower tier leaves a LOWER on it, and every lease with its tier and its LOWER. -/
theorem recallOn_leases {n : Nat} {g : RecallOrigin} (j : Slot) {l : Lease} (hl : s.leaseOf j = some l) :
    ∃ l', (s.recallOn k n g).leaseOf j = some l' ∧ l'.tier = l.tier ∧ (l.lowering = true ∨ (j = k ∧ n < l.tier) → l'.lowering = true) := by
  have hput : ∀ (x : Lease) (m d : Nat), s.leaseOf k = some x → ∃ l', (s.putLower k x m g d).leaseOf j = some l' ∧ l'.tier = l.tier ∧
      (l.lowering = true ∨ (j = k ∧ n < l.tier) → l'.lowering = true) := by
    intro x m d hx
    have hput : (s.putLower k x m g d).leaseOf j = if j = k then some { x with trans := some (.lower m (s.drawOf k m) g d) }
        else s.leaseOf j := PerSlot.get_set _ _ _ _
    by_cases hj : j = k
    · subst hj
      rw [hl] at hx; cases hx
      exact ⟨_, hput.trans (if_pos rfl), rfl, fun _ => rfl⟩
    · exact ⟨l, hput.trans ((if_neg hj).trans hl), rfl, fun hx => hx.resolve_right (fun h => hj h.1)⟩
  unfold State.recallOn
  split
  · rename_i hn
    refine ⟨l, hl, rfl, fun hx => hx.resolve_right (fun h => ?_)⟩
    rw [h.1, hn] at hl; cases hl
  · rename_i x hx
    split
    · split <;> exact hput x _ _ hx
    · rename_i hlt
      refine ⟨l, hl, rfl, fun h => h.resolve_right (fun h => ?_)⟩
      rw [h.1, hx] at hl; cases hl
      exact hlt h.2

theorem recallOn_same {n : Nat} {g : RecallOrigin} : (s.recallOn k n g).sess = s.sess ∧
    (s.recallOn k n g).alloc.queue = s.alloc.queue ∧ (s.recallOn k n g).alloc.state = s.alloc.state := by
  unfold State.recallOn
  repeat' split
  all_goals exact ⟨rfl, rfl, rfl⟩

/-- A choice of a reclaim plan can be carried out: the slot is in ON with a lease above the target. -/
def State.CanLower (s : State) (p : Slot × Nat) : Prop := (s.sessOf p.1).state = .on ∧ ∃ l, s.leaseOf p.1 = some l ∧ p.2 < l.tier

theorem canLower_recallOn {n : Nat} {g : RecallOrigin} {p : Slot × Nat} (h : s.CanLower p) : (s.recallOn k n g).CanLower p := by
  obtain ⟨hs, l, hl, hlt⟩ := h
  obtain ⟨l', hl', ht, _⟩ := recallOn_leases (k := k) (n := n) (g := g) p.1 hl
  refine ⟨?_, l', hl', by rw [ht]; exact hlt⟩
  unfold State.sessOf; rw [recallOn_same.1]; exact hs

theorem lowers_recallOn {n : Nat} {g : RecallOrigin} {j : Slot} (h : s.Lowers j ∨ j = k ∧ s.CanLower (k, n)) :
    (s.recallOn k n g).Lowers j := by
  rw [lowering_iff]
  rcases h with h | ⟨rfl, _, l, hl, hlt⟩
  · obtain ⟨l, hl, hlow⟩ := lowering_iff.1 h
    obtain ⟨l', hl', _, hx⟩ := recallOn_leases (k := k) (n := n) (g := g) j hl
    exact ⟨l', hl', hx (.inl hlow)⟩
  · obtain ⟨l', hl', _, hx⟩ := recallOn_leases (k := j) (n := n) (g := g) j hl
    exact ⟨l', hl', hx (.inr ⟨rfl, hlt⟩)⟩

/-- The recalls of a plan: each slot of it lowers then, and no entry moves (R59). -/
theorem Deeds.to_recalls (plan : List (Slot × Nat)) (h : Deeds s o t) (hp : ∀ p ∈ plan, t.CanLower p) :
    Deeds s o (plan.foldl (fun s p => s.recallOn p.1 p.2 .preempt) t) ∧
    (∀ j, t.Lowers j ∨ j ∈ plan.map Prod.fst → (plan.foldl (fun s p => s.recallOn p.1 p.2 .preempt) t).Lowers j) ∧
    (plan.foldl (fun s p => s.recallOn p.1 p.2 .preempt) t).alloc.queue = t.alloc.queue ∧
    (plan.foldl (fun s p => s.recallOn p.1 p.2 .preempt) t).alloc.state = t.alloc.state ∧
    (plan.foldl (fun s p => s.recallOn p.1 p.2 .preempt) t).alloc.reclaim = t.alloc.reclaim := by
  induction plan generalizing t with
  | nil => exact ⟨h, fun j hj => hj.resolve_right List.not_mem_nil, rfl, rfl, rfl⟩
  | cons p ps ih =>
    have hhead := hp p (List.mem_cons_self ..)
    obtain ⟨h1, h2, h3, h4, h5⟩ := ih (h.to_recallOn (n := p.2) (g := .preempt) hhead.1)
      (fun q hq => canLower_recallOn (hp q (List.mem_cons_of_mem _ hq)))
    obtain ⟨_, hqueue, hstate⟩ := recallOn_same (s := t) (k := p.1) (n := p.2) (g := .preempt)
    refine ⟨h1, fun j hj => h2 j ?_, h3.trans hqueue, h4.trans hstate, h5.trans (Moves.recallOn_reclaim t _ _)⟩
    rw [List.map_cons, List.mem_cons] at hj
    rcases hj with hj | rfl | hj
    · exact .inl (lowers_recallOn (.inl hj))
    · exact .inl (lowers_recallOn (.inr ⟨rfl, hhead⟩))
    · exact .inr hj

/-- Every choice of a reclaim plan is of a candidate, below its granted tier (R57, R58). -/
theorem reclaimPlan_canLower {ks : List Slot} {rest : Int} {plan : List (Slot × Nat)} (hk : ∀ k ∈ ks, s.candidate k = true)
    (h : s.reclaimPlan ks rest = some plan) : ∀ p ∈ plan, s.CanLower p := by
  have hcand : ∀ k n, s.candidate k = true → n ≤ 1 ∨ n ≤ s.grantedTier k - 1 → s.CanLower (k, n) := by
    intro k n hc hn
    unfold State.candidate at hc
    unfold State.grantedTier at hn
    split at hc
    · cases hc
    · rename_i l hl
      rw [hl] at hn
      simp only [Bool.and_eq_true, decide_eq_true_eq] at hc
      exact ⟨hc.1.1.1.1, l, hl, by have := hc.2; dsimp only at hn ⊢; omega⟩
  induction ks generalizing rest plan with
  | nil => cases h
  | cons k ks ih =>
    have htail := fun j hj => hk j (List.mem_cons_of_mem k hj)
    unfold State.reclaimPlan at h
    split at h
    · exact ih htail h
    · split at h
      · cases h
        intro p hp
        rw [List.mem_singleton] at hp
        subst hp
        exact hcand k _ (hk k (List.mem_cons_self ..)) (.inr (highestTier_le _ _))
      · obtain ⟨plan', hplan', rfl⟩ := Option.map_eq_some_iff.1 h
        intro p hp
        rcases List.mem_cons.1 hp with rfl | hp
        · exact hcand k 1 (hk k (List.mem_cons_self ..)) (.inl le_rfl)
        · exact ih htail hplan' p hp

namespace Deeds

theorem to_beginReclaim (h : Deeds s o t) {e : Entry} {n : Nat} {plan : List (Slot × Nat)} (hr : t.alloc.reclaim = none)
    (hs : t.alloc.state ≠ .shedding) (hn : 1 ≤ n) (he : t.entryOf e.slot = some e) (hp : ∀ p ∈ plan, t.CanLower p) :
    Deeds s o (t.beginReclaim e n plan) := by
  obtain ⟨h1, h2, h3, h4, h5⟩ := h.to_recalls plan hp
  exact to_post (h1.tail (.begin { slot := e.slot, tag := e.tag, shortfall := n, victims := plan.map Prod.fst } (h5.trans hr)
    (by rw [h4]; exact hs) hn ⟨e, (entryOf_eq_of_queue h3).trans he, rfl⟩ (fun k hk => h2 k (.inr hk))))

theorem to_askReclaim (h : Deeds s o t) {e : Entry} (he : t.entryOf e.slot = some e) : Deeds s o (t.askReclaim e) := by
  unfold State.askReclaim; split
  · rename_i hc
    obtain ⟨_, _, hr, hs, hpos⟩ := hc
    split
    · rename_i plan hplan
      exact h.to_beginReclaim hr (by rw [hs]; decide) (by omega) he
        (reclaimPlan_canLower (fun k hk => (List.mem_filter.1 hk).2) hplan)
    · exact h
  · exact h

end Deeds

/-! ### The pass and the end of a happening -/

theorem state_askReclaim {e : Entry} : (s.askReclaim e).alloc.state = s.alloc.state := by
  have hfold : ∀ (plan : List (Slot × Nat)) (t : State),
      (plan.foldl (fun s p => s.recallOn p.1 p.2 .preempt) t).alloc.state = t.alloc.state := by
    intro plan
    induction plan with
    | nil => intro t; rfl
    | cons p ps ih => intro t; exact (ih _).trans recallOn_same.2.2
  unfold State.askReclaim State.beginReclaim
  repeat' split
  · exact hfold _ _
  · rfl
  · rfl

theorem state_grant {e : Entry} {n : Nat} (he : s.entryOf e.slot = some e) : (s.grant e n).alloc.state = s.alloc.state := by
  rw [(grant_alike he).mode, letGrant_frame.2.2.1]
  exact (onlyAt_removeEntry (s := s) (k := e.slot)).state

/-- A walk never changes the Allocator's state (R37 to R42). -/
theorem state_walk (l : List Slot) : (State.walk l s).alloc.state = s.alloc.state := by
  induction l generalizing s with
  | nil => rfl
  | cons k ks ih =>
    unfold State.walk
    split
    · exact ih
    · rename_i e he
      have hk := slot_of_entryOf he
      subst hk
      split
      · split
        · split
          · exact ih.trans state_askReclaim
          · exact state_askReclaim
        · exact ih.trans (state_grant he)
      · exact ih

namespace Deeds

theorem to_walk (l : List Slot) (h : Deeds s .nothing t) (hs : t.alloc.state ≠ .shedding) : Deeds s .nothing (State.walk l t) := by
  induction l generalizing t with
  | nil => exact h
  | cons k ks ih =>
    unfold State.walk
    split
    · exact ih h hs
    · rename_i e he
      have hk := slot_of_entryOf he
      subst hk
      split
      · rename_i hel
        split
        · have hask := h.to_askReclaim he
          split
          · exact ih hask (by rw [state_askReclaim]; exact hs)
          · exact hask
        · rename_i ht
          exact ih (h.tail (.grant e he hel ht hs)) (by rw [state_grant he]; exact hs)
      · exact ih h hs

theorem to_testUnmet (h : Deeds s o t) : Deeds s o t.testUnmet := by
  unfold State.testUnmet
  split
  · exact h
  · split
    · exact h.to_endReclaim.to_wantPass
    · exact h

/-- Only the pass mark has changed. -/
theorem to_passDue (h : Deeds s o t) {p : Bool} : Deeds s o { t with alloc := { t.alloc with passDue := p } } :=
  h.to_alike (.of_eq p t.alloc.sagCondition rfl rfl rfl rfl rfl rfl)

theorem to_pass (h : Deeds s .nothing t) (hs : t.alloc.state ≠ .shedding) : Deeds s .nothing t.pass :=
  to_testUnmet (to_walk (t.alloc.queue.map Entry.slot) (h.to_passDue (p := false)) hs)

theorem to_passes (n : Nat) (h : Deeds s .nothing t) : Deeds s .nothing (State.passes n t) := by
  induction n generalizing t with
  | zero => exact h.to_passDue
  | succ n ih =>
    unfold State.passes; split
    · rename_i hc
      simp only [Bool.and_eq_true, decide_eq_true_eq] at hc
      exact ih (h.to_pass (by rw [hc.2]; decide))
    · exact h.to_passDue

theorem to_handOn (h : Deeds s o t) : Deeds s o t.handOn := by
  unfold State.handOn; split
  · rename_i k q hh _ hq
    exact h.tail (.turn (.start k hh (by rw [hq]; exact List.mem_cons_self ..)))
  · exact h

theorem to_finish (h : Deeds s .nothing t) : Deeds s .nothing t.finish := (to_passes 4 h.to_testShedEnd).to_handOn

end Deeds

end Sys2Proof.Machine
end

section
/-! PROOFS. The end of a happening leaves nothing undone (R37, R71, R118), and what every happening of the slot line, the modules, the
inputs, the Power Path Unit and the Draw Monitor comes to: deeds that settle all they owe. -/

namespace Sys2Proof.Machine

variable {s t u : State} {o : Owed} {k : Slot} {b : Bool}

/-! ### Nothing is left undone -/

/-- What `State.Settled` looks at is the same in `t`. -/
structure State.Calm (s t : State) : Prop where
  alloc : t.alloc = s.alloc
  available : t.available = s.available
  queue : t.power.queue = s.power.queue
  holder : t.power.holder = s.power.holder
  hold : t.power.hold = s.power.hold

theorem State.Settled.calm (h : s.Settled) (hc : s.Calm t) : t.Settled := by
  obtain ⟨ha, hv, hq, hh, hp⟩ := hc
  unfold State.Settled
  rw [ha, hv, hq, hh, hp]
  exact h

theorem alloc_endReclaim_state (n : Nat) : (s.endReclaim n).alloc.state = s.alloc.state := by
  unfold State.endReclaim; split <;> rfl

theorem state_pass : s.pass.alloc.state = s.alloc.state := by
  have htest : ∀ v : State, v.testUnmet.alloc.state = v.alloc.state := by
    intro v
    unfold State.testUnmet
    split
    · rfl
    · split
      · exact alloc_endReclaim_state 3
      · rfl
  unfold State.pass
  rw [htest, state_walk]

theorem passDue_passes (n : Nat) : (State.passes n s).alloc.passDue = false := by
  induction n generalizing s with
  | zero => rfl
  | succ n ih =>
    unfold State.passes; split
    · exact ih
    · rfl

theorem state_passes (n : Nat) : (State.passes n s).alloc.state = s.alloc.state := by
  induction n generalizing s with
  | zero => rfl
  | succ n ih =>
    unfold State.passes; split
    · rw [ih, state_pass]
    · rfl

/-- No pass runs outside RUNNING (R37). -/
theorem passes_of_not_running (n : Nat) (h : s.alloc.state ≠ .running) :
    State.passes n s = { s with alloc := { s.alloc with passDue := false } } := by
  cases n with
  | zero => rfl
  | succ n =>
    unfold State.passes
    rw [if_neg (by simp [h])]

theorem alloc_handOn : s.handOn.alloc = s.alloc ∧ s.handOn.available = s.available := by
  unfold State.handOn; split <;> exact ⟨rfl, rfl⟩

/-- After the handing on the ramp resource is not free while a slot waits and the hold is clear (R118). -/
theorem handOn_busy : s.handOn.power.holder = none → s.handOn.power.hold = false → s.handOn.power.queue = [] := by
  unfold State.handOn
  split
  · intro hh; cases hh
  · rename_i hno
    intro hh hp
    cases hq : s.power.queue with
    | nil => rfl
    | cons k q => exact (hno k q hh hp hq).elim

/-- A state in SHEDDING after the test for its end still has an excess (R71). -/
theorem excess_testShedEnd (h : s.testShedEnd.alloc.state = .shedding) :
    s.testShedEnd.available < s.testShedEnd.alloc.committed := by
  unfold State.testShedEnd at h ⊢
  split at h
  · dsimp only at h
    split at h <;> cases h
  · rename_i hn
    rw [if_neg hn]
    exact not_le.1 fun hle => hn ⟨h, hle⟩

/-- Whatever a happening does, its end leaves nothing undone. -/
theorem settled_finish : s.finish.Settled := by
  obtain ⟨ha, hv⟩ := alloc_handOn (s := State.passes 4 s.testShedEnd)
  refine ⟨?_, ?_, handOn_busy⟩
  · unfold State.finish; rw [ha]; exact passDue_passes 4
  · unfold State.finish; rw [ha, hv, state_passes]
    intro hs
    have := excess_testShedEnd hs
    rw [passes_of_not_running 4 (by rw [hs]; decide)]
    exact this

/-! ### Happenings -/

/-- `t` is reached from `s` by deeds that settle all they owe, and leaves nothing undone where `s` does. -/
structure Happening (s t : State) : Prop where
  deeds : Deeds s .nothing t
  settled : s.Settled → t.Settled

namespace Happening

theorem refl : Happening s s := ⟨.refl, id⟩

theorem of_finish (h : Deeds s .nothing t) : Happening s t.finish := ⟨h.to_finish, fun _ => settled_finish⟩

theorem calm (h : Happening s t) (hd : Deeds s .nothing u) (hc : t.Calm u) : Happening s u := ⟨hd, fun hs => (h.settled hs).calm hc⟩

theorem to_same (h : Happening s t) (ha : u.alloc = t.alloc) (hc : u.cmd = t.cmd) (hs : u.sess = t.sess) (hp : u.power = t.power)
    (hd : u.store = t.store) : Happening s u :=
  h.calm (h.deeds.to_same ha hc hs hp hd)
    ⟨ha, by unfold State.available State.settings; rw [hc], by rw [hp], by rw [hp], by rw [hp]⟩

theorem to_modLine (h : Happening s t) {f : Line → Line} : Happening s (t.modLine k f) := h.to_same rfl rfl rfl rfl rfl
theorem to_modMon (h : Happening s t) {f : MonSlot → MonSlot} : Happening s (t.modMon k f) := h.to_same rfl rfl rfl rfl rfl
theorem to_modHost (h : Happening s t) {f : HostPort → HostPort} : Happening s (t.modHost f) := h.to_same rfl rfl rfl rfl rfl
theorem to_drive (h : Happening s t) {w : Word} : Happening s (t.drive w) := h.to_same rfl rfl rfl rfl rfl
theorem to_taken (h : Happening s t) {c : Instr} : Happening s (t.taken c) := h.to_same rfl rfl rfl rfl rfl
theorem to_raised (h : Happening s t) {l : List Instr} : Happening s { t with raised := l } := h.to_same rfl rfl rfl rfl rfl
theorem to_mon (h : Happening s t) {m : Monitor} : Happening s { t with mon := m } := h.to_same rfl rfl rfl rfl rfl
theorem to_post (h : Happening s t) {n : NoticeKind} {p : Option Slot} {r : Reason} {v : Nat} : Happening s (t.post n p r v) :=
  h.to_same rfl rfl rfl rfl rfl
theorem to_complete (h : Happening s t) {r : CmdResult} : Happening s (t.complete r) :=
  h.calm h.deeds.to_complete ⟨rfl, rfl, rfl, rfl, rfl⟩

theorem to_modSess (h : Happening s t) {f : Session → Session} (hf : ∀ x, (f x).phase = x.phase) : Happening s (t.modSess k f) :=
  h.calm (h.deeds.to_modSess hf) ⟨rfl, rfl, rfl, rfl, rfl⟩

theorem to_modStore (h : Happening s t) {f : PolicyStore → PolicyStore} (hf : (f t.store).startDone = t.store.startDone) :
    Happening s (t.modStore f) := h.calm (h.deeds.to_modStore hf) ⟨rfl, rfl, rfl, rfl, rfl⟩

theorem whenLoaded {f : State → State} (h : Happening s t) (hf : Happening s (f t)) : Happening s (t.whenLoaded f) := by
  unfold State.whenLoaded; split
  · exact hf
  · exact h

theorem foldl {α : Type} (f : State → α → State) (hf : ∀ {u : State} (a : α), Happening s u → Happening s (f u a)) (l : List α)
    (h : Happening s t) : Happening s (l.foldl f t) := by
  induction l generalizing t with
  | nil => exact h
  | cons a l ih => exact ih (hf a h)

end Happening

/-- A session that is not open goes to another state in which it is not. -/
theorem Deeds.to_reclosed (h : Deeds s ⟨∅, b⟩ t) {f : Session → Session} {st : SessState} (hst : st.isOpen = false)
    (hk : (t.sessOf k).state.isOpen = false) : Deeds s ⟨∅, b⟩ ((t.modSess k f).enter k st) := by
  have := h.to_close (f := f) hst (.inl hk)
  rwa [Finset.erase_empty] at this

theorem Deeds.to_entered (h : Deeds s ⟨∅, b⟩ t) {st : SessState} (hst : st.isOpen = false) (hk : (t.sessOf k).state.isOpen = false) :
    Deeds s ⟨∅, b⟩ (t.enter k st) := by
  have := h.to_reclosed (f := id) hst hk
  rwa [modSess_id] at this

theorem Happening.to_reclosed (h : Happening s t) {f : Session → Session} {st : SessState} (hst : st.isOpen = false)
    (hk : (t.sessOf k).state.isOpen = false) : Happening s ((t.modSess k f).enter k st) :=
  h.calm (h.deeds.to_reclosed hst hk) ⟨rfl, rfl, rfl, rfl, rfl⟩

theorem unopened_closed : (s.unopened k).isOpen = false := by
  unfold State.unopened; split <;> rfl

/-! ### The slot line -/

namespace Happening

theorem to_sendFrame (h : Happening s t) : Happening s (t.sendFrame k) := by
  unfold State.sendFrame
  split
  · split <;> exact h.to_modLine
  all_goals exact h

theorem to_loseLink (h : Happening s t) : Happening s (t.loseLink k) := h.to_modLine.to_post

theorem to_exhausted (h : Happening s t) : Happening s (t.exhausted k) := by
  unfold State.exhausted
  split
  case h_1 | h_2 | h_3 | h_4 => exact h.to_loseLink
  all_goals exact h.to_modLine

theorem to_failAttempt (h : Happening s t) {f : FailKind} : Happening s (t.failAttempt k f) := by
  have hcounted := h.to_modLine (k := k) (f := fun l => { l with counters := l.counters.bump f })
  unfold State.failAttempt; dsimp only
  split
  · exact hcounted.to_modLine
  · split
    · exact hcounted.to_modLine
    · split
      · exact hcounted.to_modLine
      · exact hcounted.to_exhausted

theorem to_gapTimeout (h : Happening s t) : Happening s (t.gapTimeout k) := by
  unfold State.gapTimeout
  split
  · split
    · exact h.to_modLine
    · exact h.to_modLine.to_failAttempt
  all_goals exact h

theorem to_responseTimeout (h : Happening s t) : Happening s (t.responseTimeout k) := by
  unfold State.responseTimeout
  split
  case h_1 | h_2 => exact h.to_failAttempt
  all_goals exact h

theorem to_recoverLink (h : Happening s t) : Happening s (t.recoverLink k) := by
  unfold State.recoverLink; split
  · exact of_finish h.deeds.to_modLine.to_post.to_wantPass
  · exact h

end Happening

theorem Deeds.to_reportDelivery (h : Deeds s o t) {f : Frame} : Deeds s o (t.reportDelivery k f) := by
  unfold State.reportDelivery; dsimp only
  split
  · exact h.to_modLine.to_completeRaise
  · exact h.to_modLine

namespace Happening

theorem to_acceptResponse (h : Happening s t) {f : Frame} {m : UpMsg} : Happening s (t.acceptResponse k f m) :=
  to_raised (to_modLine (of_finish (h.to_recoverLink (k := k)).deeds.to_reportDelivery))

theorem to_responseComplete (h : Happening s t) {w : List Byte} {l : Bool} : Happening s (t.responseComplete k w l) := by
  unfold State.responseComplete
  split
  case h_1 | h_2 =>
    split
    · exact h
    · exact h.to_failAttempt
    · exact h.to_acceptResponse
  all_goals exact h

theorem to_responseBegin (h : Happening s t) : Happening s (t.responseBegin k) := by
  unfold State.responseBegin
  split
  case h_1 => exact h.to_modLine
  all_goals exact h

theorem to_pollElapsed (h : Happening s t) : Happening s (t.pollElapsed k) := by
  unfold State.pollElapsed
  split
  · exact h
  · exact h.to_modLine

/-- The grace of a LOST link runs out (R89, R110): an open session ends, with its lease if it has one. -/
theorem to_graceExpired (h : Happening s t) : Happening s (t.graceExpired k) := by
  have hdrop : (t.sessOf k).state.leased = true → Deeds s ⟨insert k ∅, false⟩ (t.dropLease k) := fun hs => h.deeds.to_dropLease (.inr hs)
  unfold State.graceExpired
  split
  · split
    · rename_i hs
      exact of_finish ((hdrop (by rw [hs]; rfl)).to_post.endSessionDropped unopened_closed)
    · rename_i hs
      exact of_finish ((hdrop (by rw [hs]; rfl)).to_post.endSessionDropped unopened_closed)
    · rename_i hs
      exact of_finish ((hdrop (by rw [hs]; rfl)).endSessionDropped unopened_closed)
    · rename_i hs
      exact of_finish (h.deeds.endSessionStandby unopened_closed hs)
    all_goals exact h.to_modLine
  · exact h

end Happening

/-! ### Messages -/

theorem helloFault_none {n : Nat} {d : Descriptor} (h : helloFault n d = none) : d.listOk = true := by
  unfold helloFault at h
  split at h
  · cases h
  · rename_i hok; simpa using hok

theorem state_restart : ((s.restart k).sessOf k).state = .listening := by
  unfold State.restart; dsimp only
  split <;> exact state_teardown

namespace Deeds

theorem to_openSession (h : Deeds s o t) {d : Descriptor} (hs : (t.sessOf k).state.isOpen = false) (hd : d.listOk = true) :
    Deeds s o (t.openSession k d) := by
  unfold State.openSession; dsimp only
  have hopen : ∀ f : Session → Session, (f (t.sessOf k)).desc = some d → Deeds s o ((t.modSess k f).enter k .standby) :=
    fun f hf => h.tail (.turn (.welcome k f d hs hf hd))
  split
  · exact to_bringup (to_post (to_modLine (hopen _ rfl))) (.inr (congrArg Session.state sessOf_enter))
  · exact to_post (to_modLine (hopen _ rfl))

theorem to_validateHello (h : Deeds s ⟨∅, b⟩ t) {d : Descriptor} (hs : (t.sessOf k).state = .listening) :
    Deeds s ⟨∅, b⟩ (t.validateHello k d) := by
  have hclosed : (t.sessOf k).state.isOpen = false := by rw [hs]; rfl
  unfold State.validateHello; split
  · exact to_post (to_modLine (h.to_reclosed rfl hclosed))
  · exact h.to_openSession hclosed (helloFault_none ‹_›)

theorem to_restart (h : Deeds s ⟨∅, b⟩ t) : Deeds s ⟨∅, b⟩ (t.restart k) := by
  unfold State.restart; dsimp only; split
  · exact to_post (h.to_dropTeardown (f := fun v => v.post .cut (some k) .moduleRestart (t.grantedTier k)) (fun hv => hv.to_post)
      (fun _ => rfl) rfl)
  · exact to_post (h.to_dropTeardown (f := id) (fun hv => hv) (fun _ => rfl) rfl)

theorem to_barStandby (h : Deeds s ⟨∅, b⟩ t) : Deeds s ⟨∅, b⟩ (t.barStandby k) := by
  unfold State.barStandby; split
  · rename_i hs
    exact h.endSessionStandby rfl hs.1
  · exact h

/-- A YIELD on a lease without transition (R85). -/
theorem to_yieldPlain (h : Deeds s ⟨∅, b⟩ t) {n : Nat} (hn : ∀ l, t.leaseOf k = some l → l.trans = none) :
    Deeds s ⟨∅, b⟩ (t.yieldPlain k n) := by
  unfold State.yieldPlain
  split
  · exact h
  · rename_i l hl
    have htrans := hn l hl
    split
    · exact h
    · rename_i hlt
      split
      · exact ((h.to_dropLease (.inl (by rw [hl]; rfl))).to_post).settleDropped
      · rename_i hpos
        refine to_post (h.tail (.relet k l _ hl (fun hv => ?_) fun hlisted hlaw => ⟨?_, ?_⟩))
        · unfold Lease.lowering at hv; rw [htrans] at hv; cases hv
        · exact .of_plain (Nat.one_le_iff_ne_zero.2 hpos) (by have := hlaw.le; show n ≤ _; omega) rfl htrans
        · show max (t.drawOf k n) (Transition.raiseDraw l.trans) ≤ max l.draw (Transition.raiseDraw l.trans)
          rw [hlaw.draw]
          exact max_le_max (hlisted.drawOf_mono (by omega) hlaw.le) le_rfl

end Deeds

/-- A cancelled RAISE leaves a lease without transition (R16). -/
theorem trans_cancelRaise {l l' : Lease} {n d : Nat} {g : EntryOrigin} (hl : s.leaseOf k = some l)
    (hx : l.trans = some (.raise n d g)) (h : (s.cancelRaise k).leaseOf k = some l') : l'.trans = none := by
  have hraise : s.raising k = true := by unfold State.raising; rw [hl]; dsimp only; rw [hx]
  unfold State.cancelRaise at h
  rw [hl] at h
  dsimp only at h
  rw [if_pos hraise] at h
  have hset : (s.setLease k (some { l with trans := none })).leaseOf k = some l' := h
  rw [State.leaseOf_setLease, if_pos rfl] at hset
  cases hset; rfl

namespace Deeds

theorem to_yieldOn (h : Deeds s ⟨∅, b⟩ t) {g : Byte} {n : Nat} : Deeds s ⟨∅, b⟩ (t.yieldOn k g n) := by
  unfold State.yieldOn
  split
  · exact h
  · rename_i l hl
    split
    · split
      · rename_i hx
        split
        · exact h.to_lowerAnswered hl hx ‹_›
        · exact h
      · rename_i hx
        exact h.to_cancelRaise.to_yieldPlain fun l' hl' => trans_cancelRaise hl hx hl'
      · rename_i hx
        exact h.to_yieldPlain fun l' hl' => by rw [hl] at hl'; cases hl'; exact hx
    · exact h

theorem to_readyOn (h : Deeds s ⟨∅, b⟩ t) {g : Byte} {n : Nat} : Deeds s ⟨∅, b⟩ (t.readyOn k g n) := by
  unfold State.readyOn
  split
  · exact h
  · rename_i l hl
    split
    · rename_i hx
      split
      · rename_i hc
        exact h.to_lowerAnswered hl hx hc.2
      · exact h
    · exact h
    · exact h

theorem to_faultOn (h : Deeds s ⟨∅, b⟩ t) {g : Byte} {n : Nat} : Deeds s ⟨∅, b⟩ (t.faultOn k g n) := by
  unfold State.faultOn
  split
  · exact h
  · rename_i l hl
    split
    · exact settleDropped (to_post (to_modSess (f := fun x => { x with lastEnd := .moduleFault })
        (h.to_dropLease (.inl (by rw [hl]; rfl))) fun _ => rfl))
    · exact h

end Deeds

namespace Happening

theorem to_countError (h : Happening s t) : Happening s (t.countError k) := h.to_modSess fun _ => rfl

theorem to_hearHello (h : Happening s t) {d : Descriptor} : Happening s (t.hearHello k d) := by
  have hrestart : Happening s (((t.restart k).validateHello k d).barStandby k).finish :=
    of_finish (Deeds.to_barStandby (h.deeds.to_restart.to_validateHello state_restart))
  unfold State.hearHello
  split
  case h_1 hs => exact of_finish (Deeds.to_barStandby (h.deeds.to_validateHello hs))
  case h_2 | h_3 | h_4 | h_5 => exact hrestart
  case h_6 | h_7 => exact h.to_countError
  all_goals exact h

theorem dispatch {g : Byte} {f : State → State} (h : Happening s t) (hf : Happening s (f t)) : Happening s (t.dispatch k g f) := by
  unfold State.dispatch; split
  · exact hf
  · exact h

theorem to_answerClaim (h : Happening s t) : Happening s (t.answerClaim k) := by
  unfold State.answerClaim; split
  · exact h
  · exact h.to_modLine

theorem to_hearClaim (h : Happening s t) {w l : Nat} : Happening s (t.hearClaim k w l) := by
  unfold State.hearClaim
  split
  case h_1 hs => exact (of_finish (h.deeds.to_takeClaim (.inr hs))).to_answerClaim
  case h_2 hs => exact (of_finish (h.deeds.to_takeClaim (.inl hs))).to_answerClaim
  case h_8 | h_9 => exact h
  all_goals exact h.to_countError

theorem to_hearYield (h : Happening s t) {g : Byte} {n : Nat} : Happening s (t.hearYield k g n) := by
  unfold State.hearYield
  split
  case h_1 => exact of_finish (Deeds.to_yieldOn h.deeds)
  case h_2 | h_8 | h_9 => exact h
  all_goals exact h.to_countError

theorem to_hearReady (h : Happening s t) {g : Byte} {n : Nat} : Happening s (t.hearReady k g n) := by
  unfold State.hearReady
  split
  case h_1 => exact of_finish (Deeds.to_readyOn h.deeds)
  case h_2 | h_8 | h_9 => exact h
  all_goals exact h.to_countError

theorem to_hearFault (h : Happening s t) {g : Byte} {n : Nat} : Happening s (t.hearFault k g n) := by
  unfold State.hearFault
  split
  case h_1 => exact of_finish (Deeds.to_faultOn h.deeds)
  case h_2 | h_8 | h_9 => exact h
  all_goals exact h.to_countError

/-! ### Presence and ramp -/

theorem to_presentChange (h : Happening s t) {a : Bool} : Happening s (t.presentChange k a) := by
  unfold State.presentChange; split
  · exact h
  · have hpin : Happening s { t with present := t.present.set k a } := h.to_same rfl rfl rfl rfl rfl
    exact whenLoaded hpin (hpin.to_modSess fun _ => rfl)

theorem to_insert (h : Happening s t) : Happening s (t.insert k) := by
  unfold State.insert; split
  · rename_i hc
    exact h.to_reclosed unopened_closed (by rw [hc.1]; rfl)
  · exact h

theorem to_removal (h : Happening s t) : Happening s (t.removal k) := by
  have hgone : Deeds s .nothing (((t.dropLease k).teardown k .removed .vacant).modSess k (fun x => { x with presence := .idle })) :=
    Deeds.to_modSess (Deeds.to_dropTeardown (f := id) h.deeds (fun hv => hv) (fun _ => rfl) rfl) fun _ => rfl
  unfold State.removal; split
  · refine of_finish ?_
    unfold State.vacate; dsimp only; split
    · exact hgone.to_post.to_post
    · exact hgone.to_post
  · exact h

theorem to_handOn (h : Happening s t) : Happening s t.handOn := by
  obtain ⟨ha, hv⟩ := alloc_handOn (s := t)
  refine ⟨h.deeds.to_handOn, fun hs => ?_⟩
  obtain ⟨hpass, hshed, _⟩ := h.settled hs
  exact ⟨by rw [ha]; exact hpass, by rw [ha, hv]; exact hshed, handOn_busy⟩

theorem to_rampDone (h : Happening s t) {g : Byte} : Happening s (t.rampDone k g) := by
  unfold State.rampDone; split
  · rename_i hc
    exact of_finish (h.deeds.tail (.turn (.done k hc.1)))
  · exact h

theorem to_rampTimedOut (h : Happening s t) : Happening s (t.rampTimedOut k) := by
  unfold State.rampTimedOut; split
  · rename_i hc
    split
    · exact of_finish (h.deeds.tail (.turn (.backOff k hc)))
    · exact of_finish (Deeds.to_faultSlot h.deeds)
  · exact h

theorem to_backoffEnded (h : Happening s t) : Happening s (t.backoffEnded k) := by
  unfold State.backoffEnded; split
  · rename_i hc
    exact of_finish (h.deeds.tail (.turn (.rejoin k hc)))
  · exact h

/-! ### The Draw Monitor -/

theorem to_reportGood (h : Happening s t) : Happening s (t.reportGood k) := h.to_same rfl rfl rfl rfl rfl

theorem to_stepWatch (h : Happening s t) {n : Nat} : Happening s (t.stepWatch n k) := by
  unfold State.stepWatch; split
  · exact h.to_reportGood
  · exact h.to_modMon

theorem to_scanAbove (h : Happening s t) {l : Lease} : Happening s (t.scanAbove k l) := by
  unfold State.scanAbove; dsimp only; split
  · exact h.to_same rfl rfl rfl rfl rfl
  · exact h.to_modMon

theorem to_stepOverdraw (h : Happening s t) : Happening s (t.stepOverdraw k) := by
  unfold State.stepOverdraw
  split
  · split
    · exact h.to_scanAbove
    · exact h.to_modMon
  · exact h.to_modMon

theorem to_stepDetector (h : Happening s t) {n : Nat} : Happening s (t.stepDetector n) := by
  unfold State.stepDetector
  split
  case h_3 => exact h
  all_goals exact h.to_same rfl rfl rfl rfl rfl

theorem to_stepSag (h : Happening s t) {n : Nat} : Happening s (t.stepSag n) := by
  unfold State.stepSag
  split
  · split
    · exact h.to_same rfl rfl rfl rfl rfl
    · exact to_stepDetector h.to_mon
  · exact to_stepDetector h.to_mon

theorem to_scan (h : Happening s t) {v : PerSlot Sample} {n : Nat} : Happening s (t.scan v n) := by
  unfold State.scan
  exact to_stepSag (foldl _ (fun _ hu => hu.to_stepOverdraw) _ (foldl _ (fun _ hu => hu.to_stepWatch) _
    (foldl _ (fun _ hu => hu.to_modMon) _ h.to_mon)))

theorem to_takeStrike (h : Happening s t) {g : Byte} {n : StrikeNumber} : Happening s (t.takeStrike k g n) := by
  unfold State.takeStrike
  split
  · exact h
  · split
    · refine of_finish ?_
      cases n with
      | first => exact Deeds.to_recall h.deeds.to_post
      | second => exact Deeds.to_faultSlot h.deeds.to_post
    · exact h

theorem to_deadlinePassed (h : Happening s t) : Happening s (t.deadlinePassed k) := by
  unfold State.deadlinePassed
  split
  · exact h
  · rename_i l hl
    split
    · rename_i hx
      exact of_finish (Deeds.to_lowerExpired h.deeds hl hx)
    · exact h
    · exact h

end Happening

/-! ### Sag -/

theorem leaseOf_testShedEnd (j : Slot) : s.testShedEnd.leaseOf j = s.leaseOf j := by
  unfold State.testShedEnd; split <;> rfl

theorem leaseOf_sagCut_ne {j : Slot} (h : j ≠ k) : (s.sagCut k).leaseOf j = s.leaseOf j := by
  unfold State.sagCut
  rw [leaseOf_testShedEnd]
  obtain ⟨_, hl, _⟩ := (onlyAt_dropLease (s := s) (k := k)).others j h
  exact hl

namespace Deeds

/-- The sag condition, the ramp hold and the Allocator's state change, the last neither from nor to SHEDDING. -/
theorem to_sagMode (h : Deeds s o t) {c p : Bool} {a : AllocState} (ha : a = t.alloc.state ∨ a ≠ .shedding ∧ t.alloc.state ≠ .shedding) :
    Deeds s o { t with alloc := { t.alloc with sagCondition := c, state := a }, power := { t.power with hold := p } } := by
  rcases ha with rfl | ⟨ha, ht⟩
  · exact h.to_alike (.of_eq t.alloc.passDue c rfl rfl rfl rfl rfl rfl)
  · exact (h.to_withMode (fun hx => absurd hx ha) (fun _ => .inl ht)).to_alike (.of_eq t.alloc.passDue c rfl rfl rfl rfl rfl rfl)

/-- The cuts of a sag leave the sessions of the cut slots unsettled (R136 step 2). -/
theorem to_sagCuts (l : List Slot) {B : Finset Slot} (h : Deeds s ⟨B, b⟩ t) (hn : l.Nodup)
    (hl : ∀ j ∈ l, (t.leaseOf j).isSome = true) : Deeds s ⟨B ∪ l.toFinset, b⟩ (l.foldl (fun t k => t.sagCut k) t) := by
  induction l generalizing t B with
  | nil => rw [List.toFinset_nil, Finset.union_empty]; exact h
  | cons j js ih =>
    obtain ⟨hj, hjs⟩ := List.nodup_cons.1 hn
    have hcut := to_testShedEnd (to_post (h.to_dropLease (.inl (hl j (List.mem_cons_self ..)))) (n := .cut) (p := some j) (r := .sag)
      (v := t.grantedTier j))
    have := ih hcut hjs fun i hi => by
      have hne : i ≠ j := fun hij => hj (hij ▸ hi)
      exact (congrArg Option.isSome (leaseOf_sagCut_ne hne)).trans (hl i (List.mem_cons_of_mem _ hi))
    rw [List.toFinset_cons, Finset.union_insert, ← Finset.insert_union]
    exact this

/-- The sessions of the cut slots settle, each with its RESTORE (R136 steps 3, 4). -/
theorem to_sagSettles (l : List Slot) (f : Slot → Nat) (h : Deeds s ⟨l.toFinset, b⟩ t) (hn : l.Nodup) :
    Deeds s ⟨∅, b⟩ (l.foldl (fun t k => t.settleRestoring k (f k)) t) := by
  induction l generalizing t with
  | nil => exact h
  | cons j js ih =>
    obtain ⟨hj, hjs⟩ := List.nodup_cons.1 hn
    refine ih ?_ hjs
    have := h.settleRestoringAt (k := j) (n := f j) (by simp)
    rwa [List.toFinset_cons, Finset.erase_insert (by simpa using hj)] at this

end Deeds

theorem sagVictims_nodup : s.sagVictims.Nodup := List.Nodup.filter _ (by decide)

theorem sagVictims_lease (h : k ∈ s.sagVictims) : (s.leaseOf k).isSome = true := by
  have := (List.mem_filter.1 h).2
  rw [Bool.and_eq_true] at this
  exact this.2

namespace Happening

theorem to_sagBegins (h : Happening s t) {n : Nat} : Happening s (t.sagBegins n) := by
  unfold State.sagBegins
  refine of_finish ?_
  refine Deeds.to_sagSettles _ _ ?_ sagVictims_nodup
  rw [← Finset.empty_union (List.toFinset _)]
  refine Deeds.to_sagCuts _ ?_ sagVictims_nodup fun j hj => sagVictims_lease hj
  refine Deeds.to_sagMode h.deeds.to_post ?_
  split
  · rename_i hr
    exact .inr ⟨by decide, by rw [hr]; decide⟩
  · exact .inl rfl

theorem to_sagEnds (h : Happening s t) : Happening s t.sagEnds := by
  unfold State.sagEnds
  refine of_finish (Deeds.to_wantPass (Deeds.to_sagMode (Deeds.to_post h.to_mon.deeds) ?_))
  split
  · rename_i hr
    exact .inr ⟨by decide, by rw [of_decide_eq_true hr]; decide⟩
  · exact .inl rfl

end Happening

end Sys2Proof.Machine
end

section
/-! PROOFS. The Command Unit, the Policy Store and the Host Port as deeds, and with them every command but the load and the device
reset. -/

namespace Sys2Proof.Machine

variable {s t u : State} {o : Owed} {k : Slot} {b : Bool}

/-! ### The Command Unit -/

theorem entryOf_unqueue_ne {j : Slot} (h : j ≠ k) : (s.unqueue k).entryOf j = s.entryOf j := by
  show (s.alloc.queue.filter (fun e => e.slot != k)).find? (fun e => e.slot == j) = s.alloc.queue.find? (fun e => e.slot == j)
  rw [List.find?_filter]
  congr 1
  funext e
  by_cases he : e.slot = j
  · simp [he, h]
  · simp [he]

/-- Taking an entry out and putting it in again with another class and rank leaves every claim as it was (R25). -/
theorem rekey_alike {e : Entry} {c : PowerClass} {n : Nat} (he : s.entryOf k = some e) :
    s.Alike ((s.unqueue k).joinEntry { e with cls := c, rank := n }) := by
  have hk := slot_of_entryOf he
  subst hk
  have hjoin := entryOf_joinEntry (s := s.unqueue e.slot) (e := { e with cls := c, rank := n }) entryOf_unqueue_self
  refine ⟨rfl, rfl, rfl, rfl, rfl, fun j => ?_, rfl, rfl, fun _ => rfl, fun _ => rfl, rfl, rfl, rfl⟩
  rw [hjoin]
  split
  · rename_i hj
    rw [show j = e.slot from hj, he]; rfl
  · rename_i hj
    rw [entryOf_unqueue_ne hj]

namespace Deeds

theorem to_recheckSlot (h : Deeds s o t) {f : State → Slot → Nat → Bool} {r : Reason} : Deeds s o (t.recheckSlot f r k) := by
  unfold State.recheckSlot
  split
  · exact h
  · split
    · exact h.to_denyEntry
    · exact h

theorem to_recheckFits (h : Deeds s o t) : Deeds s o t.recheckFits := foldl _ (fun _ hu => hu.to_recheckSlot) _ h

theorem to_rekeyEntry (h : Deeds s o t) : Deeds s o (t.rekeyEntry k) := by
  unfold State.rekeyEntry; split
  · exact h
  · exact to_wantPass (h.to_alike (rekey_alike ‹_›))

theorem to_reclassRamp (h : Deeds s o t) : Deeds s o (t.reclassRamp k) := h.tail (.turn (.reclass k))

theorem to_abandonDeferrable (h : Deeds s o t) : Deeds s o (t.abandonDeferrable k) := by
  unfold State.abandonDeferrable; split
  · exact h.to_abandonReclaim
  · exact h

theorem to_applyKey (h : Deeds s o t) {r : PolicyRecord} : Deeds s o (t.applyKey k r) := by
  have hkey : ∀ p : Prop, [Decidable p] → Deeds s o (if p then t.rekeyEntry k else t) := by
    intro p _
    split
    · exact h.to_rekeyEntry
    · exact h
  unfold State.applyKey; dsimp only
  split
  · exact (hkey _).to_reclassRamp.to_abandonDeferrable
  · exact hkey _

theorem to_applyCap (h : Deeds s ⟨∅, b⟩ t) : Deeds s ⟨∅, b⟩ (t.applyCap k) := by
  unfold State.applyCap; split
  · exact h.to_recall
  · exact h

/-- A slot is disabled (R90): a session without lease ends BARRED, one with a lease is recalled to 0. -/
theorem to_disable (h : Deeds s ⟨∅, b⟩ t) : Deeds s ⟨∅, b⟩ (t.disable k) := by
  unfold State.disable
  split
  case h_4 hs => exact h.to_entered rfl (by rw [hs]; rfl)
  case h_5 hs => exact h.to_reclosed rfl (by rw [hs]; rfl)
  case h_6 hs => exact h.to_denyEntry.endSessionStandby rfl (by rw [sessOf_denyEntry]; exact hs)
  case h_7 | h_8 | h_9 => exact h.to_denyEntry.to_recall
  all_goals exact h

theorem to_enable (h : Deeds s ⟨∅, b⟩ t) : Deeds s ⟨∅, b⟩ (t.enable k) := by
  unfold State.enable
  split
  case h_1 hs => exact h.to_entered rfl (by rw [hs]; rfl)
  all_goals exact h

theorem to_applyEnable (h : Deeds s ⟨∅, b⟩ t) {r : PolicyRecord} : Deeds s ⟨∅, b⟩ (t.applyEnable k r) := by
  unfold State.applyEnable
  split
  case h_1 => exact h.to_disable
  case h_2 => exact h.to_enable
  all_goals exact h

/-- The lease of an evicted slot (R164 step 3). -/
theorem to_evictLease (h : Deeds s ⟨∅, b⟩ t) {a : Bool} : Deeds s ⟨∅, b⟩ (t.evictLease k a) := by
  unfold State.evictLease
  split
  · rename_i hs
    exact settleDropped (to_post (h.to_dropLease (.inr (by rw [hs]; rfl))))
  · exact h.to_recall

/-- Admission flag and entry of an evicted slot go together (R164 steps 1, 2). -/
theorem to_unadmitDenied (h : Deeds s o t) {r : Reason} :
    Deeds s o ((t.modSess k (fun x => { x with admitFlag := false })).denyEntry k r) := by
  have hcomm := removeEntry_comm (s := t) (k := k) (f := State.modSess k (fun x => { x with admitFlag := false })) (fun _ => rfl)
    (fun _ => rfl) (fun v w hvw => by unfold State.modSess; rw [hvw]) (fun _ _ hvw => hvw) (fun _ => rfl)
  exact (h.to_removeEntry.to_unadmit (.inl entryOf_removeEntry_self)).to_alike (hcomm.trans denyEntry_alike)

theorem to_moveTier (h : Deeds s ⟨∅, b⟩ t) {n : Nat} (hs : (t.sessOf k).state = .on) : Deeds s ⟨∅, b⟩ (t.moveTier k n) := by
  unfold State.moveTier
  split
  · exact h.to_takeClaim (.inl hs)
  · split
    · exact h.to_recall
    · exact h

end Deeds

namespace Happening

theorem command {f : State → State} (h : Happening s t) (hf : Happening s (f t)) : Happening s (t.command f) := by
  unfold State.command; split
  · exact h.to_same rfl rfl rfl rfl rfl
  · exact hf

theorem slotCommand {a : Byte} {f : Slot → State → State} (h : Happening s t) (hf : ∀ k, Happening s (f k t)) :
    Happening s (t.slotCommand a f) := by
  refine command h ?_
  split
  · exact h.to_complete
  · exact hf _

theorem to_applyPolicy (h : Happening s t) : Happening s (t.applyPolicy k) := by
  unfold State.applyPolicy; dsimp only; split
  · rename_i hok
    refine to_complete ?_
    split
    · exact h
    · unfold State.applyRecord State.applyRecheck
      exact of_finish (Deeds.to_applyEnable (Deeds.to_applyCap
        ((h.deeds.tail (.policy k _ hok)).to_applyKey.to_recheckSlot.to_recheckFits)))
  · exact h.to_complete

theorem to_setBudget (h : Happening s t) {l r : Nat} : Happening s (t.setBudget l r) := by
  unfold State.setBudget; split
  · exact h.to_complete
  · split
    · exact h.to_complete
    · refine to_complete ?_
      unfold State.applyBudget
      exact of_finish (Deeds.to_wantPass (Deeds.to_testShedding (h.deeds.tail (.limits _)).to_recheckFits))

theorem to_admitSlot (h : Happening s t) : Happening s (t.admitSlot k) := by
  unfold State.admitSlot; split
  · rename_i hc
    have hflag := h.deeds.tail (.turn (.flag k true (.inl rfl)))
    refine to_complete (of_finish (Deeds.to_bringup hflag (.inr ?_)))
    rw [State.sessOf_modSess, if_pos rfl]; exact hc.1
  · exact h.to_complete

theorem to_evictSlot (h : Happening s t) {n : Nat} : Happening s (t.evictSlot k n) := by
  unfold State.evictSlot
  split
  · exact h.to_complete
  · split
    · exact h.to_complete
    · exact to_complete (of_finish (Deeds.to_evictLease h.deeds.to_unadmitDenied))

theorem to_setTier (h : Happening s t) {n : Nat} : Happening s (t.setTier k n) := by
  unfold State.setTier
  split
  · exact h.to_complete
  · rename_i hs
    split
    · exact h.to_complete
    · exact to_complete (of_finish (Deeds.to_moveTier h.deeds (not_not.1 hs)))

theorem to_clearFault (h : Happening s t) : Happening s (t.clearFault k) := by
  unfold State.clearFault; dsimp only; split
  · rename_i hs
    have hclosed := h.to_reclosed (k := k) (f := fun x => { x with desc := none, lastEnd := .none }) (unopened_closed (s := t) (k := k))
      (by rw [hs]; rfl)
    refine to_complete ?_
    exact hclosed.to_same rfl rfl rfl rfl rfl
  · exact h.to_complete

theorem to_rescan (h : Happening s t) : Happening s (t.rescan k) := by
  unfold State.rescan; dsimp only; split
  · rename_i hs
    have hclosed := h.to_reclosed (k := k) (f := fun x => { x with desc := none }) (st := .listening) rfl (by rw [hs]; rfl)
    refine to_complete ?_
    exact hclosed.to_same rfl rfl rfl rfl rfl
  · exact h.to_complete

theorem to_storePolicy (h : Happening s t) : Happening s t.storePolicy := h.to_modStore (PolicyStore.setTarget_startDone _ _)

theorem to_takeCommand (h : Happening s t) {c a d : Word} : Happening s (t.takeCommand c a d) := by
  unfold State.takeCommand; dsimp only
  split
  · exact slotCommand h fun _ => h.to_applyPolicy
  · exact command h h.to_setBudget
  · exact slotCommand h fun _ => h.to_admitSlot
  · exact slotCommand h fun _ => h.to_evictSlot
  · exact slotCommand h fun _ => h.to_setTier
  · exact slotCommand h fun _ => h.to_clearFault
  · exact slotCommand h fun _ => h.to_rescan
  · exact command h h.to_storePolicy
  · exact command h h.to_complete

/-! ### The Policy Store -/

theorem to_eraseDone (h : Happening s t) : Happening s t.eraseDone := by
  unfold State.eraseDone; split
  · exact h.to_modStore (PolicyStore.setTarget_startDone _ _)
  · exact h

theorem to_programDone (h : Happening s t) : Happening s t.programDone := by
  unfold State.programDone; split
  · exact h.to_modStore (PolicyStore.setTarget_startDone _ _)
  · exact h

theorem to_endStore (h : Happening s t) {r : CmdResult} : Happening s (t.endStore r) := by
  unfold State.endStore; dsimp only; split
  · exact h.to_modStore rfl
  · exact to_complete (h.to_modStore rfl)

theorem to_storeBad (h : Happening s t) {x : Copy} : Happening s (t.storeBad x) :=
  to_endStore (h.to_modStore (PolicyStore.setTarget_startDone _ _))

theorem to_storeGood (h : Happening s t) {i : Image} : Happening s (t.storeGood i) := by
  have hput := to_endStore (r := .ok) (h.to_modStore
    (f := fun p => { p.setTarget (.whole i) with active := p.target, activeGen := i.generation })
    (PolicyStore.setTarget_startDone _ (.whole i)))
  unfold State.storeGood; dsimp only; split
  · exact hput
  · exact hput.to_post

theorem to_verifyDone (h : Happening s t) {v : VerifyOutcome} : Happening s (t.verifyDone v) := by
  unfold State.verifyDone
  split
  · cases v with
    | success => exact h.to_storeGood
    | fieldDiffers => exact h.to_storeBad
    | checkDiffers => exact h.to_storeBad
  · exact h

/-! ### The Host Port -/

theorem to_endTransaction (h : Happening s t) : Happening s t.endTransaction := by
  unfold State.endTransaction; dsimp only; split
  · exact whenLoaded h.to_modHost h.to_modHost.to_takeCommand
  · exact h.to_modHost

theorem to_touch (h : Happening s t) {w : Bool} {a : BitVec 7} : Happening s (t.touch w a) := by
  refine to_modHost ?_
  unfold State.reach
  split
  · exact h.to_modHost
  · split
    · exact h
    · exact h.to_endTransaction.to_modHost

theorem to_clearPeak (h : Happening s t) {w : Word} : Happening s (t.clearPeak w) := by
  unfold State.clearPeak
  split
  · split
    · exact h
    · exact h.to_modMon
  · exact h

theorem to_readTable (h : Happening s t) : Happening s t.readTable := by
  unfold State.readTable; split
  · exact h.to_clearPeak.to_modHost.to_drive
  · exact h.to_modHost.to_drive

theorem to_takeNotice (h : Happening s t) : Happening s t.takeNotice := by
  unfold State.takeNotice; split
  · exact h.to_modHost
  · exact h.to_same rfl rfl rfl rfl rfl

theorem to_readNotice (h : Happening s t) : Happening s t.readNotice := by
  unfold State.readNotice; dsimp only; split
  · exact h.to_takeNotice.to_modHost.to_drive
  · exact h.to_modHost.to_drive

theorem to_fetch (h : Happening s t) {a : BitVec 7} : Happening s (t.fetch a) := by
  have htouch := h.to_touch (w := false) (a := a)
  unfold State.fetch; dsimp only
  split
  · exact htouch.to_drive
  · split
    · exact htouch.to_readTable
    · split
      · exact htouch.to_readNotice
      · split
        · exact htouch.to_modHost.to_drive
        · exact htouch.to_drive

theorem to_writeSetting (h : Happening s t) {r : SettingReg} {w : Word} : Happening s (t.writeSetting r w) := by
  unfold State.writeSetting; split
  · exact h.to_modHost
  · rename_i x hx
    obtain ⟨_, hlimit, hreserve, _⟩ := Moves.settingApply_keeps hx
    refine h.calm (h.deeds.to_modSettings ⟨hlimit, hreserve⟩) ⟨rfl, ?_, rfl, rfl, rfl⟩
    show x.supplyLimit - x.reserve = _
    rw [hlimit, hreserve]; rfl

end Happening

/-- Clamping the pass counts leaves every claim as it was (R43). -/
theorem clamp_alike (n : Nat) : s.Alike (s.withQueue (s.alloc.queue.map (fun e => { e with passCount := min e.passCount n }))) := by
  refine ⟨rfl, rfl, rfl, rfl, rfl, fun j => ?_, rfl, rfl, fun _ => rfl, fun _ => rfl, rfl, rfl, rfl⟩
  show Option.map _ (List.find? _ (List.map _ s.alloc.queue)) = _
  rw [List.find?_map, Option.map_map]
  rfl

namespace Happening

theorem to_writePassLimit (h : Happening s t) {w : Word} : Happening s (t.writePassLimit w) := by
  unfold State.writePassLimit; split
  · exact h.to_modHost
  · have hlimit := h.deeds.to_modSettings (f := fun x => { x with passLimit := w.toNat }) ⟨rfl, rfl⟩
    exact of_finish (Deeds.to_wantPass (hlimit.to_alike (clamp_alike w.toNat)))

theorem to_writeTable (h : Happening s t) {w : Word} : Happening s (t.writeTable w) := by
  unfold State.writeTable; dsimp only; split
  · refine h.calm (h.deeds.to_alike ?_) ⟨rfl, rfl, rfl, rfl, rfl⟩
    exact .of_eq t.alloc.passDue t.alloc.sagCondition rfl rfl rfl rfl rfl rfl
  · exact h.to_modHost.to_modHost

theorem to_writeControl (h : Happening s t) {a c d e r : Bool} : Happening s (t.writeControl a c d e r) := by
  have hset : ∀ p : Bool, Deeds s .nothing (((t.modSettings (fun x => { x with backfill := a, preempt := c })).modHost
      (fun h => { h with intNoticeEn := d, intCmdEn := e })).wantPass p) := fun p =>
    Deeds.to_wantPass (Deeds.to_modHost (h.deeds.to_modSettings ⟨rfl, rfl⟩))
  unfold State.writeControl; dsimp only
  split
  · exact of_finish (Deeds.to_alike (hset _) (.of_eq _ _ rfl rfl rfl rfl rfl rfl))
  · exact of_finish (hset _)

theorem to_writeLoaded (h : Happening s t) {a : BitVec 7} {w : Word} : Happening s (t.writeLoaded a w) := by
  unfold State.writeLoaded
  split
  case h_2 => exact h.to_writeControl
  case h_6 => exact h.to_writePassLimit
  case h_8 => exact h.to_writeTable
  case h_9 =>
    split
    · exact h.to_writeSetting
    · exact h
  all_goals exact h.to_modHost

theorem to_write (h : Happening s t) {a : BitVec 7} {w : Word} : Happening s (t.write a w) :=
  whenLoaded h.to_touch h.to_touch.to_writeLoaded

theorem to_control (h : Happening s t) {f : State → State} (hf : ∀ {u : State}, Happening s u → Happening s (f u)) :
    Happening s (t.control f) := whenLoaded h.to_touch (hf h.to_touch)

end Happening

/-- What every command but the load and the device reset comes to. -/
theorem exec_happening {c : Instr} (hload : c ≠ .policyLoad) (hreset : ∀ r, c ≠ .deviceReset r) (h : exec c s = .next t) :
    Happening s t := by
  have h0 : Happening s s := .refl
  cases c <;> cases h
  case deviceReset r => exact absurd rfl (hreset r)
  case policyLoad => exact absurd rfl hload
  case presentChange => exact h0.to_presentChange
  case insertion => exact h0.whenLoaded h0.to_insert
  case removal => exact h0.whenLoaded h0.to_removal
  case scan => exact h0.whenLoaded h0.to_scan
  case outputGood =>
    refine h0.whenLoaded ?_
    split
    · exact h0.to_reportGood
    · exact h0
  case rampDone => exact h0.to_taken.whenLoaded h0.to_taken.to_rampDone
  case rampStart => exact h0.whenLoaded h0.to_handOn
  case rampTimeout => exact h0.whenLoaded h0.to_rampTimedOut
  case backoffEnd => exact h0.whenLoaded h0.to_backoffEnded
  case overdrawStrike => exact h0.to_taken.whenLoaded h0.to_taken.to_takeStrike
  case strikeClear =>
    refine h0.whenLoaded ?_
    split
    · exact h0.to_modMon
    · exact h0
  case sagBegin => exact h0.to_taken.whenLoaded h0.to_taken.to_sagBegins
  case sagEnd =>
    refine h0.whenLoaded ?_
    split
    · exact h0.to_sagEnds
    · exact h0
  case recallDeadline => exact h0.whenLoaded h0.to_deadlinePassed
  case pollTimer => exact h0.whenLoaded h0.to_pollElapsed
  case frameSend => exact h0.whenLoaded h0.to_sendFrame
  case lineGapTimeout => exact h0.whenLoaded h0.to_gapTimeout
  case responseTimeout => exact h0.whenLoaded h0.to_responseTimeout
  case responseComplete => exact h0.whenLoaded h0.to_responseComplete
  case responseBegin => exact h0.whenLoaded h0.to_responseBegin
  case linkGraceExpiry => exact h0.whenLoaded h0.to_graceExpired
  case hello => exact h0.to_taken.whenLoaded h0.to_taken.to_hearHello
  case claim => exact h0.to_taken.whenLoaded (h0.to_taken.dispatch h0.to_taken.to_hearClaim)
  case yieldTier => exact h0.to_taken.whenLoaded (h0.to_taken.dispatch h0.to_taken.to_hearYield)
  case ready => exact h0.to_taken.whenLoaded (h0.to_taken.dispatch h0.to_taken.to_hearReady)
  case moduleFault => exact h0.to_taken.whenLoaded (h0.to_taken.dispatch h0.to_taken.to_hearFault)
  case noneMessage => exact h0.to_taken
  case applyPolicy => exact h0.whenLoaded (h0.slotCommand fun _ => h0.to_applyPolicy)
  case setBudget => exact h0.whenLoaded (h0.command h0.to_setBudget)
  case admitSlot => exact h0.whenLoaded (h0.slotCommand fun _ => h0.to_admitSlot)
  case evict => exact h0.whenLoaded (h0.slotCommand fun _ => h0.to_evictSlot)
  case setTier => exact h0.whenLoaded (h0.slotCommand fun _ => h0.to_setTier)
  case clearFault => exact h0.whenLoaded (h0.slotCommand fun _ => h0.to_clearFault)
  case rescan => exact h0.whenLoaded (h0.slotCommand fun _ => h0.to_rescan)
  case storePolicy => exact h0.whenLoaded (h0.command h0.to_storePolicy)
  case eraseComplete => exact h0.whenLoaded h0.to_eraseDone
  case programComplete => exact h0.whenLoaded h0.to_programDone
  case verifyComplete => exact h0.whenLoaded h0.to_verifyDone
  case setBackfill | setPreempt | setIntEnables | portReset => exact h0.to_control fun hu => hu.to_writeControl
  case settingWrite | passLimitWrite | statusW1C | tableSelWrite | tableDataWrite | registerWrite => exact h0.to_write
  case tableDataRead | noticeDataRead | budgetRegisterRead => exact h0.to_fetch
  case transactionEnd => exact h0.to_endTransaction

end Sys2Proof.Machine
end

section
/-! PROOFS. What a step can be: a happening, a device reset or the load. Each keeps the laws of chapters 1 to 4 and 6 (R4, R8, R9, R13). -/

namespace Sys2Proof.Machine

variable {s t u : State} {k : Slot}

/-! ### Before the load -/

/-- Allocator, Power Path Unit, sessions and store are those of `s`. -/
structure State.Unmoved (s t : State) : Prop where
  alloc : t.alloc = s.alloc
  power : t.power = s.power
  sess : t.sess = s.sess
  store : t.store = s.store

namespace State.Unmoved

theorem refl : s.Unmoved s := ⟨rfl, rfl, rfl, rfl⟩

theorem loadLaw (h : s.Unmoved t) (hs : s.LoadLaw) : t.LoadLaw := by
  obtain ⟨ha, hp, hx, hd⟩ := h
  unfold State.LoadLaw
  rw [ha, hp, hx, hd]
  exact hs

variable (hd : s.store.startDone = false)
include hd

/-- Before the load nothing that waits for it happens (R145). -/
theorem whenLoaded {f : State → State} (h : s.Unmoved t) : s.Unmoved (t.whenLoaded f) := by
  unfold State.whenLoaded
  rw [if_neg (by rw [h.store, hd]; decide)]
  exact h

theorem endTransaction (h : s.Unmoved t) : s.Unmoved t.endTransaction := by
  have hrelease : s.Unmoved (t.modHost HostPort.release) := ⟨h.alloc, h.power, h.sess, h.store⟩
  unfold State.endTransaction; dsimp only; split
  · exact whenLoaded hd hrelease
  · exact hrelease

theorem touch (h : s.Unmoved t) {w : Bool} {a : BitVec 7} : s.Unmoved (t.touch w a) := by
  have hreach : s.Unmoved (t.reach w a) := by
    unfold State.reach
    split
    · exact ⟨h.alloc, h.power, h.sess, h.store⟩
    · split
      · exact h
      · obtain ⟨ha, hp, hx, hs⟩ := endTransaction hd h
        exact ⟨ha, hp, hx, hs⟩
  exact ⟨hreach.alloc, hreach.power, hreach.sess, hreach.store⟩

theorem fetch (h : s.Unmoved t) {a : BitVec 7} : s.Unmoved (t.fetch a) := by
  obtain ⟨ha, hp, hx, hs⟩ := touch hd h (w := false) (a := a)
  unfold State.fetch; dsimp only
  rw [if_pos (by rw [hs, hd])]
  exact ⟨ha, hp, hx, hs⟩

end State.Unmoved

/-- Before the load no command but the load and the device reset moves anything that the laws look at. -/
theorem exec_unloaded {c : Instr} (hload : c ≠ .policyLoad) (hreset : ∀ r, c ≠ .deviceReset r) (hd : s.store.startDone = false)
    (h : exec c s = .next t) : s.Unmoved t := by
  have hplain : ∀ {f : State → State}, s.Unmoved (s.whenLoaded f) := .whenLoaded hd .refl
  have htaken : ∀ {c : Instr} {f : State → State}, s.Unmoved ((s.taken c).whenLoaded f) := .whenLoaded hd ⟨rfl, rfl, rfl, rfl⟩
  have htouch : ∀ {w : Bool} {a : BitVec 7} {f : State → State}, s.Unmoved ((s.touch w a).whenLoaded f) :=
    .whenLoaded hd (.touch hd .refl)
  cases c <;> cases h
  case deviceReset r => exact absurd rfl (hreset r)
  case policyLoad => exact absurd rfl hload
  case presentChange =>
    unfold State.presentChange; split
    · exact .refl
    · exact .whenLoaded hd ⟨rfl, rfl, rfl, rfl⟩
  case rampDone | overdrawStrike | sagBegin | hello | claim | yieldTier | ready | moduleFault => exact htaken
  case noneMessage => exact ⟨rfl, rfl, rfl, rfl⟩
  case setBackfill | setPreempt | setIntEnables | portReset => exact htouch
  case settingWrite | passLimitWrite | statusW1C | tableSelWrite | tableDataWrite | registerWrite => exact htouch
  case tableDataRead | noticeDataRead | budgetRegisterRead => exact .fetch hd .refl
  case transactionEnd => exact .endTransaction hd .refl
  all_goals exact hplain

/-! ### What a step can be -/

/-- A happening that keeps the law of the state before the load. -/
def State.Onward (s t : State) : Prop := Happening s t ∧ (s.LoadLaw → t.LoadLaw)

theorem exec_onward {c : Instr} (hload : c ≠ .policyLoad) (hreset : ∀ r, c ≠ .deviceReset r) (h : exec c s = .next t) :
    s.Onward t := by
  have hhap := exec_happening hload hreset h
  refine ⟨hhap, fun hs hd => ?_⟩
  rw [deeds_keep_startDone hhap.deeds] at hd
  exact (exec_unloaded hload hreset hd h).loadLaw hs (by rw [deeds_keep_startDone hhap.deeds]; exact hd)

theorem Deeds.trans {o : Owed} (h : Deeds s .nothing t) (g : Deeds t o u) : Deeds s o u := by
  induction g with
  | refl => exact h
  | tail _ d ih => exact ih.tail d

theorem State.Onward.trans (h : s.Onward t) (g : t.Onward u) : s.Onward u :=
  ⟨⟨h.1.deeds.trans g.1.deeds, g.1.settled ∘ h.1.settled⟩, g.2 ∘ h.2⟩

theorem onward_of_same (h : s.Unmoved t) (hc : t.cmd = s.cmd) : s.Onward t :=
  ⟨Happening.refl.to_same h.alloc hc h.sess h.power h.store, h.loadLaw⟩

theorem tick_onward (hd : s.store.startDone = true) : s.Onward s.tick :=
  ⟨⟨Deeds.refl.tail .tick, id⟩, fun _ ht => by rw [show s.tick.store.startDone = true from hd] at ht; cases ht⟩

/-- What executing a command comes to: a happening, a device reset or the load. -/
theorem exec_cases {c : Instr} (h : exec c s = .next t) : s.Onward t ∨ t.AtRest ∨ s.store.startDone = false ∧ t = s.load := by
  by_cases hreset : ∃ r, c = .deviceReset r
  · obtain ⟨r, rfl⟩ := hreset
    cases h
    exact .inr (.inl (deviceReset_atRest r s))
  · by_cases hload : c = .policyLoad
    · subst hload
      rw [exec_policyLoad] at h
      split at h <;> cases h
      · exact .inl (onward_of_same .refl rfl)
      · rename_i hd
        exact .inr (.inr ⟨by simpa using hd, rfl⟩)
    · exact .inl (exec_onward hload (fun r hr => hreset ⟨r, hr⟩) h)

/-- What a step comes to. -/
theorem step_cases (h : step s = .next t) :
    s.Onward t ∨ t.AtRest ∨ ∃ q, s.store.startDone = false ∧ t = State.load { s with pending := q } := by
  unfold step at h
  split at h
  · rename_i c rest _
    have htake : s.Onward { s with pending := rest } := onward_of_same ⟨rfl, rfl, rfl, rfl⟩ rfl
    rcases exec_cases h with hon | hrest | ⟨hd, hload⟩
    · exact .inl (htake.trans hon)
    · exact .inr (.inl hrest)
    · exact .inr (.inr ⟨rest, hd, hload⟩)
  · unfold idle at h
    split at h
    · rename_i hd
      have hexec : ∀ c, exec c s = .next t →
          s.Onward t ∨ t.AtRest ∨ ∃ q, s.store.startDone = false ∧ t = State.load { s with pending := q } := by
        intro c hc
        rcases exec_cases hc with hon | hrest | ⟨hn, _⟩
        · exact .inl hon
        · exact .inr (.inl hrest)
        · rw [hd] at hn; cases hn
      split at h
      · exact hexec _ h
      · split at h
        · exact hexec _ h
        · cases h
          exact .inl (tick_onward hd)
    · cases h
      exact .inl (onward_of_same .refl rfl)

/-! ### The load -/

/-- What the load leaves (R21, R145): the floors are committed and fit, and nothing else has begun. -/
structure State.JustLoaded (s : State) : Prop where
  alloc : s.alloc = { Allocator.reset with committed := s.floorSum }
  power : s.power = PowerPath.reset
  sess : ∀ k, (s.sessOf k).phase = Session.reset.phase
  started : s.store.startDone = true
  fits : s.floorSum ≤ s.available

theorem load_justLoaded (hl : s.LoadLaw) (hd : s.store.startDone = false) : s.load.JustLoaded := by
  obtain ⟨halloc, hpower, hsess⟩ := hl hd
  refine ⟨?_, hpower, fun k => ?_, rfl, ?_⟩
  · show { s.alloc with committed := s.load.floorSum } = { Allocator.reset with committed := s.load.floorSum }
    rw [halloc]
  · have : (s.load.sessOf k).phase = (s.sessOf k).phase := by
      unfold State.sessOf
      show Session.phase (PerSlot.get (PerSlot.tabulate (fun k =>
        { s.sess.get k with presence := if s.present.get k then .toInsertion 0 else .idle })) k) = _
      rw [PerSlot.get_tabulate]; rfl
    rw [this]
    unfold State.sessOf
    rw [hsess, PerSlot.get_all]
  · obtain ⟨_, _, hfits⟩ := policyLaw_iff.1 (load_keeps_policyLaw s)
    exact hfits

namespace State.JustLoaded

variable (h : s.JustLoaded)
include h

theorem loadLaw : s.LoadLaw := fun hd => by rw [h.started] at hd; cases hd

theorem leaseOf (k : Slot) : s.leaseOf k = none := by unfold State.leaseOf; rw [h.alloc]; exact PerSlot.get_all _ _

theorem rampOf (k : Slot) : s.rampOf k = Ramp.reset := by unfold State.rampOf; rw [h.power]; exact PerSlot.get_all _ _

theorem entryOf (k : Slot) : s.entryOf k = none := by unfold State.entryOf; rw [h.alloc]; rfl

theorem reclaim : s.alloc.reclaim = none := by rw [h.alloc]; rfl

theorem state (k : Slot) : (s.sessOf k).state = .vacant := congrArg (fun x => x.1) (h.sess k)

theorem mode : s.alloc.state = .running := by rw [h.alloc]; rfl

theorem counted : s.Counted := by
  refine ⟨?_, ?_, fun r hr => by rw [h.reclaim] at hr; cases hr⟩
  · have hc : s.commitment = s.floorOf := funext fun k => by
      unfold State.commitment; rw [h.leaseOf]; exact Nat.max_zero _
    unfold State.CommittedLaw
    rw [hc, h.alloc]; rfl
  · unfold State.EarmarkLaw; rw [h.reclaim, h.alloc]; rfl

theorem settled : s.Settled := by
  unfold State.Settled; rw [h.mode, h.alloc, h.power]
  exact ⟨rfl, fun hs => absurd hs (by decide), fun _ _ => rfl⟩

theorem coherent : s.Coherent := by
  have hq : s.power.queue = [] := by rw [h.power]; rfl
  have hh : s.power.holder = none := by rw [h.power]; rfl
  refine ⟨fun k => ?_, by rw [hq]; exact List.nodup_nil, by rw [hq]; exact List.Pairwise.nil⟩
  unfold State.SlotLaw
  rw [h.leaseOf, h.state, h.rampOf, h.entryOf, hq, hh]
  simp [Ramp.reset, SessState.leased, SessState.gateOn, SessState.auxOn, SessState.rampOk]

theorem tierLaw : s.TierLaw := by
  intro k
  rw [h.state, h.leaseOf, h.entryOf]
  exact ⟨fun hx => (Bool.false_ne_true hx).elim, fun _ hx => (by cases hx), fun _ hx => (by cases hx)⟩

theorem budgetLaw : s.BudgetLaw := by
  unfold State.BudgetLaw
  rw [if_neg (by rw [h.mode]; decide), h.alloc]
  exact h.fits

end State.JustLoaded

/-- A law that holds after a device reset and after the load, and that every happening keeps, is kept by every step. -/
theorem step_keeps_law {P : State → Prop} (hl : s.LoadLaw) (hon : s.Onward t → P t) (hrest : t.AtRest → P t)
    (hload : t.JustLoaded → P t) (h : step s = .next t) : P t := by
  rcases step_cases h with ho | hr | ⟨q, hd, rfl⟩
  · exact hon ho
  · exact hrest hr
  · exact hload (load_justLoaded (s := { s with pending := q }) hl hd)

/-- Settles O55: every deed keeps committed, earmark and reclaim in agreement, and before the load nothing moves. -/
theorem everyStepKeepsTheCounters : Obligations.EveryStepKeepsTheCounters := by
  intro s t hl hcommitted hearmark hreclaim h
  have hboth : t.LoadLaw ∧ t.Counted := by
    refine step_keeps_law (P := fun t => t.LoadLaw ∧ t.Counted) hl (fun ho => ?_) (fun hr => ?_) (fun hj => ?_) h
    · exact ⟨ho.2 hl, deeds_keep_counted ho.1.deeds ⟨hcommitted, hearmark, hreclaim⟩⟩
    · exact ⟨hr.loadLaw, hr.committedLaw, hr.earmarkLaw, hr.reclaimLaw⟩
    · exact ⟨hj.loadLaw, hj.counted⟩
  obtain ⟨hload, hc, he, hr⟩ := hboth
  exact ⟨hload, hc, he, hr⟩

/-- Settles O58: a happening ends with nothing undone, and its deeds settle every session that they unsettle. -/
theorem everyStepKeepsTheBlocksInAgreement : Obligations.EveryStepKeepsTheBlocksInAgreement := by
  intro s t hl _ hsettled hcoherent h
  refine step_keeps_law (P := fun t => t.Settled ∧ t.Coherent) hl (fun ho => ?_) (fun hr => ?_) (fun hj => ?_) h
  · exact ⟨ho.1.settled hsettled, coherentBut_empty.1 (deeds_keep_coherent ho.1.deeds hcoherent)⟩
  · exact ⟨hr.settled, hr.coherent⟩
  · exact ⟨hj.settled, hj.coherent⟩

/-- Settles O59: every deed keeps tiers, draws and targets in the lists, given the agreement of the blocks. -/
theorem everyStepKeepsTheTiersInTheList : Obligations.EveryStepKeepsTheTiersInTheList := by
  intro s t hl _ _ hcoherent htier h
  exact step_keeps_law hl (fun ho => deeds_keep_tier ho.1.deeds hcoherent htier) (fun hr => hr.tierLaw) (fun hj => hj.tierLaw) h

/-- Settles O60: every deed keeps the budget, but for the test for shedding that a change of available owes and then makes. -/
theorem everyStepKeepsTheBudget : Obligations.EveryStepKeepsTheBudget := by
  intro s t hs h
  refine step_keeps_law hs.load (fun ho => ?_) (fun hr => hr.budgetLaw) (fun hj => hj.budgetLaw) h
  exact budgetBut_false.1 (deeds_keep_budget ho.1.deeds ⟨hs.committed, hs.earmark, hs.reclaim⟩ hs.coherent hs.tier hs.budget)

end Sys2Proof.Machine
end

section
/-! PROOFS. The Demand Queue has one entry for each slot at most and stands in the order of class and rank: every move keeps it
(R23, R24). -/

namespace Sys2Proof.Machine

variable {s t : State} {k : Slot}

/-! ### The key -/

theorem Entry.keyGe_iff {a b : Entry} :
    a.keyGe b = true ↔ b.cls.weight < a.cls.weight ∨ a.cls.weight = b.cls.weight ∧ b.rank ≤ a.rank := by
  simp [Entry.keyGe]

theorem Entry.keyGe_trans {a b c : Entry} (h : a.keyGe b = true) (h' : b.keyGe c = true) : a.keyGe c = true := by
  rw [Entry.keyGe_iff] at *; omega

/-- Of two entries one has a key higher than or equal to the other's. -/
theorem Entry.keyGe_of_not {a b : Entry} (h : ¬ a.keyGe b = true) : b.keyGe a = true := by
  rw [Entry.keyGe_iff] at *; omega

/-! ### Where an entry joins -/

theorem insertEntry_perm (e : Entry) (q : List Entry) : (insertEntry e q).Perm (e :: q) := by
  induction q with
  | nil => exact List.Perm.refl _
  | cons x xs ih =>
    unfold insertEntry; split
    · exact (ih.cons x).trans (List.Perm.swap e x xs)
    · exact List.Perm.refl _

/-- An entry joins directly behind the last entry whose key is higher than or equal to its own (R24). -/
theorem insertEntry_split (e : Entry) (q : List Entry) : ∃ ahead behind, q = ahead ++ behind ∧
    insertEntry e q = ahead ++ e :: behind ∧ (∀ x ∈ behind, x.keyGe e = false) ∧
    ∀ x, ahead.getLast? = some x → x.keyGe e = true := by
  induction q with
  | nil => exact ⟨[], [], rfl, rfl, fun _ hx => (by cases hx), fun _ hx => (by cases hx)⟩
  | cons y ys ih =>
    unfold insertEntry; split
    · rename_i hany
      obtain ⟨ahead, behind, rfl, hins, hbehind, hlast⟩ := ih
      refine ⟨y :: ahead, behind, rfl, by rw [hins]; rfl, hbehind, fun x hx => ?_⟩
      cases ahead with
      | nil =>
        cases hx
        obtain ⟨z, hz, hge⟩ := List.any_eq_true.1 hany
        rcases List.mem_cons.1 hz with rfl | hz
        · exact hge
        · rw [hbehind z hz] at hge; cases hge
      | cons z zs => exact hlast x hx
    · rename_i hany
      refine ⟨[], y :: ys, rfl, rfl, fun x hx => ?_, fun x hx => (by cases hx)⟩
      simpa using fun hge => hany (List.any_eq_true.2 ⟨x, hx, hge⟩)

/-- In an ordered queue the place of an entry keeps the order (R24). -/
theorem pairwise_insertEntry {e : Entry} {q : List Entry} (h : q.Pairwise (fun a b => a.keyGe b = true)) :
    (insertEntry e q).Pairwise (fun a b => a.keyGe b = true) := by
  obtain ⟨ahead, behind, rfl, hins, hbehind, hlast⟩ := insertEntry_split e q
  obtain ⟨hahead, hrest, hcross⟩ := List.pairwise_append.1 h
  have hge : ∀ x ∈ ahead, x.keyGe e = true := by
    intro x hx
    rcases ahead.eq_nil_or_concat with rfl | ⟨init, z, rfl⟩
    · cases hx
    · have hz : z.keyGe e = true := hlast z (by simp)
      rw [List.concat_eq_append, List.mem_append, List.mem_singleton] at hx
      rcases hx with hx | rfl
      · rw [List.concat_eq_append] at hahead
        exact Entry.keyGe_trans ((List.pairwise_append.1 hahead).2.2 x hx z (List.mem_singleton_self z)) hz
      · exact hz
  rw [hins]
  refine List.pairwise_append.2 ⟨hahead, List.pairwise_cons.2 ⟨fun x hx => ?_, hrest⟩, fun x hx y hy => ?_⟩
  · exact Entry.keyGe_of_not (by rw [hbehind x hx]; decide)
  · rcases List.mem_cons.1 hy with rfl | hy
    · exact hge x hx
    · exact hcross x hx y hy

/-! ### The laws, and every move -/

/-- One entry for each slot at most, in order (R23, R24). -/
structure State.QueueLaw (s : State) : Prop where
  entry : s.EntryLaw
  order : s.OrderLaw

/-- The laws of the queue look at slot, class and rank of its entries only. -/
theorem queueLaw_iff : s.QueueLaw ↔ ((s.alloc.queue.map Entry.place).map Prod.fst).Nodup ∧
    (s.alloc.queue.map Entry.place).Pairwise
      (fun a b => b.2.1.weight < a.2.1.weight ∨ a.2.1.weight = b.2.1.weight ∧ b.2.2 ≤ a.2.2) := by
  rw [List.map_map, List.pairwise_map]
  have horder : s.OrderLaw ↔ s.alloc.queue.Pairwise (fun a b =>
      b.cls.weight < a.cls.weight ∨ a.cls.weight = b.cls.weight ∧ b.rank ≤ a.rank) := by
    unfold State.OrderLaw; simp only [Entry.keyGe_iff]
  exact ⟨fun h => ⟨h.entry, horder.1 h.order⟩, fun h => ⟨h.1, horder.2 h.2⟩⟩

theorem State.QueueLaw.congr (h : s.QueueLaw) (hq : t.alloc.queue.map Entry.place = s.alloc.queue.map Entry.place) :
    t.QueueLaw := by
  rw [queueLaw_iff] at *; rw [hq]; exact h

theorem State.QueueLaw.same (h : s.QueueLaw) (ha : t.alloc = s.alloc) : t.QueueLaw := h.congr (by rw [ha])

theorem State.QueueLaw.of_empty (h : s.alloc.queue = []) : s.QueueLaw :=
  ⟨by unfold State.EntryLaw; rw [h]; exact List.nodup_nil, by unfold State.OrderLaw; rw [h]; exact List.Pairwise.nil⟩

theorem State.QueueLaw.filter (h : s.QueueLaw) (p : Entry → Bool) : (s.withQueue (s.alloc.queue.filter p)).QueueLaw where
  entry := List.Nodup.sublist (List.filter_sublist.map _) h.entry
  order := List.Pairwise.sublist List.filter_sublist h.order

theorem State.QueueLaw.joinEntry {e : Entry} (h : s.QueueLaw) (he : s.entryOf e.slot = none) : (s.joinEntry e).QueueLaw where
  entry := by
    refine ((insertEntry_perm e s.alloc.queue).map Entry.slot).nodup_iff.2 (List.nodup_cons.2 ⟨fun hmem => ?_, h.entry⟩)
    obtain ⟨x, hx, hslot⟩ := List.mem_map.1 hmem
    exact List.find?_eq_none.1 he x hx (by simpa using hslot)
  order := pairwise_insertEntry h.order

theorem move_keeps_queueLaw (h : Move s t) (hs : s.QueueLaw) : t.QueueLaw := by
  cases h with
  | outside ha | pop _ _ _ _ ha | clear _ ha => exact hs.same ha
  | deadlines ha => exact hs.congr (by rw [ha])
  | passLimit n _ => exact hs.congr (by simp [State.withQueue, Entry.place, Function.comp_def])
  | leave p => exact hs.filter p
  | requeue q hq => exact hs.congr hq
  | join e he => exact hs.joinEntry he
  | rekey k e c r he =>
    refine (hs.filter _).joinEntry ?_
    show (s.unqueue k).entryOf e.slot = none
    rw [slot_of_entryOf he]; exact entryOf_unqueue_self
  | reset b => exact .of_empty (deviceReset_atRest b s).queue
  | post | flags | lease | policy | settings | reclaimEnd | reclaimBegin | earmark => exact hs.congr rfl

/-- Settles O57: every move keeps one entry for each slot and the order, and before the load the queue is empty. -/
theorem everyStepKeepsTheQueueOrder : Obligations.EveryStepKeepsTheQueueOrder := by
  intro s t hl hentry horder h
  obtain ⟨h1, h2⟩ : t.QueueLaw := step_keeps move_keeps_queueLaw
    (fun {u} hu hd _ => .of_empty (by show u.alloc.queue = []; rw [(hu hd).1]; rfl)) hl ⟨hentry, horder⟩ h
  exact ⟨h1, h2⟩

end Sys2Proof.Machine
end

section
/-! PROOFS. The grant tier of an entry, and what a grant does to the queue, the reclaim, the lease and the slot's line (R39 to R41, R61). -/

namespace Sys2Proof.Machine

variable {s t u : State} {k : Slot} {e : Entry} {n : Nat}

/-! ### The claim channel -/

/-- A frame that becomes due leaves the claim channel as it is. -/
theorem Line.kick_outClaim (x : Line) : x.kick.outClaim = x.outClaim := by
  unfold Line.kick; split <;> rfl

theorem Line.queue_claim (m : DownMsg) (x : Line) : (x.queue .claim m).outClaim = some m :=
  Line.kick_outClaim _

theorem Line.queueClaim_grant (n : Nat) (b : Bool) (x : Line) : (x.queueClaim (.grant n b)).outClaim = some (.grant n b) := by
  unfold Line.queueClaim; split
  · exact Line.queue_claim _ x
  · rename_i hno; exact absurd rfl (hno n b)
  · exact Line.queue_claim _ x

/-- A HOLD or DENY takes the claim channel, but for a GRANT that stands there (R99). -/
theorem Line.queueClaim_after {m : DownMsg} (hm : ∀ n b, m ≠ .grant n b) (x : Line) :
    (x.queueClaim m).outClaim = claimAfter x.outClaim m := by
  unfold Line.queueClaim claimAfter
  rcases hx : x.outClaim with _ | c
  · exact Line.queue_claim m x
  · cases c with
    | grant n b =>
      cases m with
      | grant n' b' => exact absurd rfl (hm n' b')
      | _ => exact hx
    | _ => exact Line.queue_claim m x

theorem Line.removeHold_outClaim (x : Line) (n : Nat) : x.removeHold.outClaim ≠ some (.hold n) := by
  unfold Line.removeHold; split
  · exact fun h => nomatch h
  · rename_i hno; exact hno n

theorem Line.removeHold_outSession (x : Line) : x.removeHold.outSession = x.outSession := by
  unfold Line.removeHold; split <;> rfl

/-! ### The grant tier -/

theorem le_highestTier {ok : Nat → Bool} {m : Nat} (hm : ok m = true) (h1 : 1 ≤ m) (hn : m ≤ n) : m ≤ highestTier ok n := by
  induction n with
  | zero => exact hn.trans (Nat.zero_le _)
  | succ n ih =>
    unfold highestTier; split
    · exact hn
    · rename_i hno
      refine ih (Nat.le_of_lt_succ (lt_of_le_of_ne hn ?_))
      rintro rfl; exact hno hm

/-- Tier `n` is one that entry `e` may be granted (R39): in its range from below, above the granted tier, within the cap, and
covered by the budget. -/
def State.Grantable (s : State) (e : Entry) (n : Nat) : Prop :=
  e.least ≤ n ∧ (s.leaseOf e.slot).elim 0 Lease.tier < n ∧ s.drawOf e.slot n ≤ (s.policyOf e.slot).cap ∧
    s.need e.slot n ≤ s.budgetFor e.slot

theorem grantable_iff : s.Grantable e n ↔ s.lowestTier e ≤ n ∧ 1 ≤ n ∧ s.drawOf e.slot n ≤ (s.policyOf e.slot).cap ∧
    s.need e.slot n ≤ s.budgetFor e.slot := by
  have hlow : e.least ≤ n ∧ (s.leaseOf e.slot).elim 0 Lease.tier < n ↔ s.lowestTier e ≤ n ∧ 1 ≤ n := by
    unfold State.lowestTier
    cases s.leaseOf e.slot with
    | none => exact Iff.rfl
    | some l => simp only [Option.elim_some]; omega
  unfold State.Grantable
  rw [← and_assoc, hlow, and_assoc]

/-- The grant tier is a tier that the entry may be granted, if there is one. -/
theorem grantTier_grantable (h : s.grantTier e ≠ 0) : s.grantTier e ≤ e.wanted ∧ s.Grantable e (s.grantTier e) := by
  obtain ⟨hlow, hle, hcap, hneed⟩ := grantTier_spec h
  exact ⟨hle, grantable_iff.2 ⟨hlow, Nat.one_le_iff_ne_zero.2 h, hcap, hneed⟩⟩

/-- No tier that the entry may be granted lies above its grant tier (R39). -/
theorem le_grantTier (h : s.Grantable e n) (hn : n ≤ e.wanted) : n ≤ s.grantTier e := by
  obtain ⟨hlow, hpos, hcap, hneed⟩ := grantable_iff.1 h
  exact le_highestTier (by simp only [hlow, hpos, hcap, hneed, decide_true, Bool.and_self]) hpos hn

/-! ### The pass counts ahead -/

/-- An entry may be tested where its link is UP and its lease, if any, carries no transition (R38). -/
theorem eligible_iff : s.eligible k = true ↔
    (s.lineOf k).lost = false ∧ (s.leaseOf k).all (fun l => l.trans.isNone) = true := by
  unfold State.eligible State.lowering State.raising Lease.lowering
  rcases s.leaseOf k with _ | ⟨_, _, _, _, _ | _ | _⟩ <;> simp

/-- The pass count that a grant behind it leaves of an entry (R41). -/
def State.bumped (s : State) (e : Entry) : Entry :=
  if s.eligible e.slot && decide (e.passCount < s.settings.passLimit) then { e with passCount := e.passCount + 1 } else e

theorem bumped_slot : (s.bumped e).slot = e.slot := by
  unfold State.bumped; split <;> rfl

theorem bumpAhead_eq {ahead behind : List Entry} (he : e.slot = k) (ha : ∀ x ∈ ahead, x.slot ≠ k) :
    s.bumpAhead k (ahead ++ e :: behind) = ahead.map s.bumped ++ e :: behind := by
  induction ahead with
  | nil => exact if_pos he
  | cons x xs ih =>
    obtain ⟨hx, hxs⟩ := List.forall_mem_cons.1 ha
    rw [List.cons_append, State.bumpAhead, if_neg hx, ih hxs]; rfl

/-- The queue that a grant leaves: the counts ahead have risen and the entry has gone (R40, R41). -/
theorem queue_ungranted {ahead behind : List Entry} (hq : s.alloc.queue = ahead ++ e :: behind)
    (ho : ∀ x ∈ ahead ++ behind, x.slot ≠ e.slot) : (s.ungranted e.slot).alloc.queue = ahead.map s.bumped ++ behind := by
  obtain ⟨ha, hb⟩ := List.forall_mem_append.1 ho
  show (s.bumpAhead e.slot s.alloc.queue).filter (fun x => x.slot != e.slot) = _
  have hahead : ∀ x ∈ ahead.map s.bumped, (x.slot != e.slot) = true := by
    intro x hx
    obtain ⟨y, hy, rfl⟩ := List.mem_map.1 hx
    rw [bumped_slot]; exact bne_iff_ne.2 (ha y hy)
  rw [hq, bumpAhead_eq rfl ha, List.filter_append, List.filter_eq_self.2 hahead, List.filter_cons_of_neg (by simp),
    List.filter_eq_self.2 (fun x hx => bne_iff_ne.2 (hb x hx))]

/-- Another slot keeps its entry, or has none as before. -/
theorem entryOf_isSome_ungranted {j : Slot} (hj : j ≠ k) : ((s.ungranted k).entryOf j).isSome = (s.entryOf j).isSome := by
  have hclaim := congrArg Option.isSome (entryOf_ungranted (s := s) (k := k) j)
  rw [Option.isSome_map, Option.isSome_map] at hclaim
  obtain ⟨_, _, _, _, _, hentry⟩ := (onlyAt_unqueue (s := s) (k := k)).others j hj
  rw [hclaim, hentry]

/-! ### The lease of a grant -/

theorem sessOf_createLease {b : Bool} (j : Slot) :
    (s.createLease k n b).sessOf j = if j = k then { s.sessOf k with state := .rampWait } else s.sessOf j := PerSlot.get_set _ _ _ _

theorem leaseOf_createLease {b : Bool} (j : Slot) : (s.createLease k n b).leaseOf j =
    if j = k then some ⟨(s.sessOf k).tag, n, s.drawOf k n, b, none⟩ else s.leaseOf j := PerSlot.get_set _ _ _ _

theorem lineOf_createLease {b : Bool} (j : Slot) :
    (s.createLease k n b).lineOf j = if j = k then (s.lineOf k).removeHold else s.lineOf j := PerSlot.get_set _ _ _ _

theorem rampOf_createLease {b : Bool} (j : Slot) : (s.createLease k n b).rampOf j = if j = k then
    { s.rampOf k with state := .queued, tag := (s.sessOf k).tag, cls := (s.policyOf k).cls, retry := 0, timer := 0 }
    else s.rampOf j := by
  show ((State.modRamp k _ _).joinRamp k).rampOf j = _
  rw [rampOf_joinRamp, State.rampOf_modRamp, State.rampOf_modRamp, if_pos rfl]
  split <;> rfl

/-- The Ramp Queue that a new lease leaves: its slot has joined with the class of its policy (R117). -/
theorem queue_createLease {b : Bool} : (s.createLease k n b).power.queue =
    rampInsert (fun j => ((s.createLease k n b).rampOf j).cls) k (s.policyOf k).cls s.power.queue := by
  have hcls : ∀ j, ((s.createLease k n b).rampOf j).cls = ((s.modRamp k (fun r =>
      { r with tag := (s.sessOf k).tag, cls := (s.policyOf k).cls, retry := 0 })).rampOf j).cls := by
    intro j; rw [rampOf_createLease, State.rampOf_modRamp]; split <;> rfl
  have hk : ((s.modRamp k (fun r =>
      { r with tag := (s.sessOf k).tag, cls := (s.policyOf k).cls, retry := 0 })).rampOf k).cls = (s.policyOf k).cls := by
    rw [State.rampOf_modRamp, if_pos rfl]
  rw [funext hcls]
  exact congrArg (fun c => rampInsert _ k c s.power.queue) hk

theorem committed_createLease {b : Bool} : (s.createLease k n b).alloc.committed =
    s.alloc.committed + max (s.floorOf k) (s.drawOf k n) - s.commitment k :=
  (committed_setLease (l := some ⟨(s.sessOf k).tag, n, s.drawOf k n, b, none⟩)).trans
    (by show _ + max _ (max _ 0) - _ = _; rw [Nat.max_zero])

theorem leaseOf_createRaise {l : Lease} {o : EntryOrigin} {b : Bool} (j : Slot) : (s.createRaise k l n o b).leaseOf j =
    if j = k then some { l with trans := some (.raise n (s.drawOf k n) o) } else s.leaseOf j := PerSlot.get_set _ _ _ _

theorem lineOf_createRaise {l : Lease} {o : EntryOrigin} {b : Bool} (j : Slot) : (s.createRaise k l n o b).lineOf j =
    if j = k then (s.lineOf k).queueClaim (.grant n b) else s.lineOf j := PerSlot.get_set _ _ _ _

/-- Neither lease of a grant reaches another slot or the Host Port. -/
theorem onlyAt_letGrant {o : EntryOrigin} {b : Bool} : State.OnlyAt k s (s.letGrant k n o b) := by
  unfold State.letGrant; split
  · exact onlyAt_setLease.trans onlyAt_modLine
  · refine ⟨⟨rfl, rfl, rfl, rfl, rfl⟩, fun j hj => ⟨?_, ?_, ?_, ?_, rfl, rfl⟩, rfl, rfl, rfl, rfl, rfl⟩
    · rw [sessOf_createLease, if_neg hj]
    · rw [leaseOf_createLease, if_neg hj]
    · rw [lineOf_createLease, if_neg hj]
    · rw [rampOf_createLease, if_neg hj]

/-! ### The grant -/

/-- What a grant of tier `n` to entry `e` does to the queue and the slot's lease (R10, R14, R41). -/
def State.letting (e : Entry) (n : Nat) (s : State) : State :=
  (s.ungranted e.slot).letGrant e.slot n e.origin (decide (n < e.wanted))

theorem letting_some {l : Lease} (h : s.leaseOf e.slot = some l) (n : Nat) :
    s.letting e n = (s.ungranted e.slot).createRaise e.slot l n e.origin (decide (n < e.wanted)) :=
  letGrant_some (s := s.ungranted e.slot) h n e.origin _

theorem letting_none (h : s.leaseOf e.slot = none) (n : Nat) :
    s.letting e n = (s.ungranted e.slot).createLease e.slot n (decide (n < e.wanted)) :=
  letGrant_none (s := s.ungranted e.slot) h n e.origin _

/-- A grant: its queue, its lease and GRANTED, and for the beneficiary the end of its reclaim (R40, R61). -/
theorem grant_eq_with :
    let q := s.notices.take .granted (some e.slot) e.origin.reason (decide (n < e.wanted)) n
    s.grant e n = { s.letting e n with
      notices := if s.isBeneficiary e.slot = true then q.take .reclaimEnd (some e.slot) .preempt false 1 else q
      alloc := { (s.letting e n).alloc with
        reclaim := if s.isBeneficiary e.slot = true then none else s.alloc.reclaim
        earmark := if s.isBeneficiary e.slot = true then 0 else s.alloc.earmark
        passDue := (s.letting e n).alloc.passDue || (s.isBeneficiary e.slot &&
          decide ((s.letting e n).commitment e.slot - s.commitment e.slot < s.alloc.earmark)) } } := by
  dsimp only
  have hq : (s.letting e n).notices = s.notices := by
    unfold State.letting State.letGrant; split <;> rfl
  obtain ⟨hm, hr, _⟩ := letGrant_frame (s := s.ungranted e.slot) (k := e.slot) (n := n) (g := e.origin)
    (b := decide (n < e.wanted))
  rw [show s.grant e n = (let u := (s.letting e n).postGranted e.slot e.origin.reason (decide (n < e.wanted)) n
    if s.isBeneficiary e.slot = true then
      ((u.withReclaim none 0).wantPass (decide (u.commitment e.slot - s.commitment e.slot < s.alloc.earmark))).post .reclaimEnd
        (some e.slot) .preempt 1
    else u) from grant_eq, ← hq]
  change (s.letting e n).alloc.earmark = s.alloc.earmark at hm
  change (s.letting e n).alloc.reclaim = s.alloc.reclaim at hr
  generalize s.letting e n = v at *
  cases s.isBeneficiary e.slot with
  | true => rfl
  | false => rw [← hr, ← hm, Bool.false_and, Bool.or_false]; rfl

/-! The grant's notices and the end of its reclaim leave the rest as the making of its lease does. -/

theorem sess_grant : (s.grant e n).sess = (s.letting e n).sess := by rw [grant_eq_with]
theorem power_grant : (s.grant e n).power = (s.letting e n).power := by rw [grant_eq_with]
theorem committed_grant : (s.grant e n).alloc.committed = (s.letting e n).alloc.committed := by rw [grant_eq_with]
theorem sessOf_grant (j : Slot) : (s.grant e n).sessOf j = (s.letting e n).sessOf j := by rw [grant_eq_with]; rfl
theorem lineOf_grant (j : Slot) : (s.grant e n).lineOf j = (s.letting e n).lineOf j := by rw [grant_eq_with]; rfl
theorem rampOf_grant (j : Slot) : (s.grant e n).rampOf j = (s.letting e n).rampOf j := by rw [grant_eq_with]; rfl
theorem monOf_grant (j : Slot) : (s.grant e n).monOf j = (s.letting e n).monOf j := by rw [grant_eq_with]; rfl
theorem leaseOf_grant (j : Slot) : (s.grant e n).leaseOf j = (s.letting e n).leaseOf j := by rw [grant_eq_with]; rfl

theorem queue_grant : (s.grant e n).alloc.queue = (s.ungranted e.slot).alloc.queue := by
  obtain ⟨_, _, _, hqueue, _⟩ := letGrant_frame (s := s.ungranted e.slot) (k := e.slot) (n := n) (g := e.origin)
    (b := decide (n < e.wanted))
  rw [grant_eq_with]; exact hqueue

theorem entryOf_grant_self : (s.grant e n).entryOf e.slot = none :=
  (entryOf_eq_of_queue queue_grant).trans entryOf_unqueue_self

/-- A grant reaches neither the Host Port nor the live policy. -/
theorem hostSame_grant : s.HostSame (s.grant e n) := by
  obtain ⟨hhost, hcmd, hstore, hpresent, hpending⟩ := (onlyAt_letGrant (s := s.ungranted e.slot) (k := e.slot) (n := n)
    (o := e.origin) (b := decide (n < e.wanted))).host
  rw [grant_eq_with]
  exact ⟨hhost, hcmd, hstore, hpresent, hpending⟩

/-- A grant on a lease leaves it a RAISE (R14). -/
theorem grant_of_lease {l : Lease} (hl : s.leaseOf e.slot = some l) :
    (s.grant e n).leaseOf e.slot = some { l with trans := some (.raise n (s.drawOf e.slot n) e.origin) } ∧
    (s.grant e n).sess = s.sess ∧ (s.grant e n).power = s.power ∧
    ((s.grant e n).lineOf e.slot).outClaim = some (.grant n (decide (n < e.wanted))) := by
  rw [sess_grant, power_grant, leaseOf_grant, lineOf_grant, letting_some hl, leaseOf_createRaise, lineOf_createRaise, if_pos rfl, if_pos rfl]
  exact ⟨rfl, rfl, rfl, Line.queueClaim_grant _ _ _⟩

/-- A grant without a lease leaves a new one in RAMP_WAIT, and its slot in the Ramp Queue (R10). -/
theorem grant_of_no_lease (hl : s.leaseOf e.slot = none) :
    (s.grant e n).leaseOf e.slot = some ⟨(s.sessOf e.slot).tag, n, s.drawOf e.slot n, decide (n < e.wanted), none⟩ ∧
    (s.grant e n).sessOf e.slot = { s.sessOf e.slot with state := .rampWait } ∧
    (s.grant e n).rampOf e.slot = { s.rampOf e.slot with
      state := .queued, tag := (s.sessOf e.slot).tag, cls := (s.policyOf e.slot).cls, retry := 0, timer := 0 } ∧
    (s.grant e n).lineOf e.slot = (s.lineOf e.slot).removeHold ∧
    (s.grant e n).power.queue =
      rampInsert (fun j => ((s.grant e n).rampOf j).cls) e.slot (s.policyOf e.slot).cls s.power.queue ∧
    (s.grant e n).alloc.committed = s.alloc.committed + max (s.floorOf e.slot) (s.drawOf e.slot n) - s.commitment e.slot := by
  have hcls : (fun j => ((s.grant e n).rampOf j).cls) = fun j => ((s.letting e n).rampOf j).cls :=
    funext fun j => congrArg Ramp.cls (rampOf_grant j)
  rw [hcls, power_grant, committed_grant, leaseOf_grant, sessOf_grant, rampOf_grant, lineOf_grant, letting_none hl]
  exact ⟨(leaseOf_createLease _).trans (if_pos rfl), (sessOf_createLease _).trans (if_pos rfl),
    (rampOf_createLease _).trans (if_pos rfl), (lineOf_createLease _).trans (if_pos rfl), queue_createLease, committed_createLease⟩

/-- Settles O53: the grant tier by the search for the highest, the grant by its parts. -/
theorem aGrantIsTheHighestTierThatFits : Obligations.AGrantIsTheHighestTierThatFits := by
  unfold Obligations.AGrantIsTheHighestTierThatFits
  intro s e t
  refine ⟨fun ht h1 => ?_, fun h0 n h1 hn hok => ?_, fun ahead behind hq ho => ?_, hostSame_grant, entryOf_grant_self,
    fun j hj => ?_, ?_, ?_, ?_, fun l hl => grant_of_lease hl, fun hl => ?_⟩
  · subst ht
    obtain ⟨hle, hok⟩ := grantTier_grantable (Nat.one_le_iff_ne_zero.1 h1)
    exact ⟨hle, hok, fun n hn hw hg => absurd (le_grantTier hg hw) (Nat.not_le.2 hn)⟩
  · have : n ≤ s.grantTier e := le_grantTier hok hn
    omega
  · rw [queue_grant, queue_ungranted hq ho]
    congr 1
    refine List.map_congr_left fun x _ => ?_
    unfold State.bumped
    simp only [Bool.and_eq_true, decide_eq_true_eq, eligible_iff, and_assoc]
  · rw [entryOf_eq_of_queue queue_grant]; exact entryOf_isSome_ungranted hj
  · rw [grant_eq_with]
  · rw [grant_eq_with]
  · rw [grant_eq_with]
  · obtain ⟨hlease, hsess, hramp, hline, hqueue, hcommitted⟩ := grant_of_no_lease (n := t) hl
    rw [hlease, hsess, hramp, hline, hqueue, hcommitted]
    exact ⟨rfl, rfl, mem_rampInsert.2 (.inl rfl), rfl, Line.removeHold_outSession _, Line.removeHold_outClaim _, rfl⟩

end Sys2Proof.Machine
end

section
/-! PROOFS. The recalls that begin a reclaim: they move no budget quantity and reach no slot outside the plan (R57 to R59). -/

namespace Sys2Proof.Machine

variable {s t u : State} {j k : Slot} {e : Entry} {n : Nat}

/-! ### Commitments that stand, and the pass mark -/

/-- The pass mark becomes `b` (R37). -/
def State.withPassDue (b : Bool) (s : State) : State := { s with alloc := { s.alloc with passDue := b } }

/-- A lease that takes what the slot's lease took moves committed by nothing (R4). -/
theorem setLease_of_term_eq {l : Option Lease} (h : Lease.term l = Lease.term (s.leaseOf k)) :
    s.setLease k l = { s with alloc := { s.alloc with leases := s.alloc.leases.set k l } } := by
  have hc : (s.setLease k l).commitment k = s.commitment k := by
    rw [commitment_setLease, if_pos rfl, h]; rfl
  have hcommitted : (s.setLease k l).alloc.committed = s.alloc.committed := by
    show s.alloc.committed + (s.setLease k l).commitment k - s.commitment k = _
    rw [hc]; exact Nat.add_sub_cancel ..
  have hdue : (s.setLease k l).alloc.passDue = s.alloc.passDue := by
    show (s.alloc.passDue || decide ((s.setLease k l).commitment k < s.commitment k)) = _
    rw [hc]; simp
  show { s with alloc := { s.alloc with
    leases := s.alloc.leases.set k l, committed := (s.setLease k l).alloc.committed, passDue := (s.setLease k l).alloc.passDue } } = _
  rw [hcommitted, hdue]

/-- A lease that takes no less than the slot's lease took is no cause of a pass (R37). -/
theorem passDue_setLease_of_le {l : Option Lease} (h : Lease.term (s.leaseOf k) ≤ Lease.term l) :
    (s.setLease k l).alloc.passDue = s.alloc.passDue := by
  have hc : ¬ (s.setLease k l).commitment k < s.commitment k := by
    rw [commitment_setLease, if_pos rfl]
    exact Nat.not_lt.2 (max_le_max le_rfl h)
  show (s.alloc.passDue || decide ((s.setLease k l).commitment k < s.commitment k)) = _
  rw [decide_eq_false hc, Bool.or_false]

/-- A lease without a RAISE takes its draw. -/
theorem term_of_not_raising {l : Lease} (hl : s.leaseOf k = some l) (h : s.raising k = false) : Lease.term (s.leaseOf k) = l.draw := by
  unfold State.raising at h
  rw [hl] at h ⊢
  rcases l with ⟨_, _, _, _, _ | _ | _⟩
  · exact Nat.max_zero _
  · cases h
  · exact Nat.max_zero _

/-! ### Recalls -/

/-- What recalls to leases without a RAISE on the slots `ks` leave: leases and lines of other slots, and everything else but
the Notice Queue, which only grows. A lease that may be tested after them is the one that stood before. -/
structure State.Recalled (ks : List Slot) (s t : State) : Prop where
  host : s.HostSame t
  raised : t.raised = s.raised
  alloc : t.alloc = { s.alloc with leases := t.alloc.leases }
  sess : t.sess = s.sess
  power : t.power = s.power
  mon : t.mon = s.mon
  notices : s.notices.records <+: t.notices.records
  others : ∀ j, j ∉ ks → t.leaseOf j = s.leaseOf j ∧ t.lineOf j = s.lineOf j
  raising : ∀ j, s.raising j = false → t.raising j = false
  eligible : ∀ j, t.eligible j = true → s.eligible j = true ∧ t.leaseOf j = s.leaseOf j

theorem State.HostSame.trans (h : s.HostSame t) (g : t.HostSame u) : s.HostSame u := by
  obtain ⟨h1, h2, h3, h4, h5⟩ := h
  obtain ⟨g1, g2, g3, g4, g5⟩ := g
  exact ⟨g1.trans h1, g2.trans h2, g3.trans h3, g4.trans h4, g5.trans h5⟩

theorem State.HostSame.refl (s : State) : s.HostSame s := ⟨rfl, rfl, rfl, rfl, rfl⟩

/-- A post only adds to the records (R172). -/
theorem take_records (q : NoticeQueue) (c : NoticeKind) (o : Option Slot) (r : Reason) (b : Bool) (v : Nat) :
    q.records <+: (q.take c o r b v).records := by
  unfold NoticeQueue.take; split
  · exact List.prefix_append _ _
  · exact List.prefix_refl _

namespace State.Recalled

variable {ks js : List Slot}

theorem refl (s : State) : s.Recalled [] s :=
  ⟨.refl s, rfl, rfl, rfl, rfl, rfl, List.prefix_refl _, fun _ _ => ⟨rfl, rfl⟩, fun _ h => h, fun _ h => ⟨h, rfl⟩⟩

theorem mono (h : s.Recalled ks t) (hks : ks ⊆ js) : s.Recalled js t :=
  { h with others := fun j hj => h.others j fun hk => hj (hks hk) }

theorem trans (h : s.Recalled ks t) (g : t.Recalled js u) : s.Recalled (ks ++ js) u where
  host := h.host.trans g.host
  raised := g.raised.trans h.raised
  alloc := by rw [g.alloc, h.alloc]
  sess := g.sess.trans h.sess
  power := g.power.trans h.power
  mon := g.mon.trans h.mon
  notices := h.notices.trans g.notices
  others j hj := by
    rw [List.mem_append, not_or] at hj
    obtain ⟨hlease, hline⟩ := h.others j hj.1
    obtain ⟨glease, gline⟩ := g.others j hj.2
    exact ⟨glease.trans hlease, gline.trans hline⟩
  raising j hj := g.raising j (h.raising j hj)
  eligible j hj := by
    obtain ⟨gel, glease⟩ := g.eligible j hj
    obtain ⟨hel, hlease⟩ := h.eligible j gel
    exact ⟨hel, glease.trans hlease⟩

end State.Recalled

/-- A LOWER put on a lease without a RAISE: lease, line and notice, and nothing of the budget. -/
theorem putLower_eq {l : Lease} {g : RecallOrigin} {d : Nat} (hl : s.leaseOf k = some l) (h : s.raising k = false) :
    s.putLower k l n g d = { s with
      alloc := { s.alloc with leases := s.alloc.leases.set k (some { l with trans := some (.lower n (s.drawOf k n) g d) }) }
      line := s.line.set k ((s.lineOf k).queue .recall (.recall n (recallField d)))
      notices := s.notices.take .recallIssued (some k) g.reason false n } := by
  have hterm : Lease.term (some { l with trans := some (.lower n (s.drawOf k n) g d) }) = Lease.term (s.leaseOf k) :=
    (Nat.max_zero _).trans (term_of_not_raising hl h).symm
  unfold State.putLower
  rw [setLease_of_term_eq hterm]
  rfl

theorem putLower_recalled {l : Lease} {g : RecallOrigin} {d : Nat} (hl : s.leaseOf k = some l) (h : s.raising k = false) :
    s.Recalled [k] (s.putLower k l n g d) := by
  have hlease : (s.putLower k l n g d).leaseOf k = some { l with trans := some (.lower n (s.drawOf k n) g d) } :=
    PerSlot.get_set_self _ _ _
  have hothers : ∀ j, j ≠ k → (s.putLower k l n g d).leaseOf j = s.leaseOf j ∧ (s.putLower k l n g d).lineOf j = s.lineOf j :=
    fun j hj => ⟨PerSlot.get_set_ne _ _ hj, PerSlot.get_set_ne _ _ hj⟩
  refine ⟨⟨rfl, rfl, rfl, rfl, rfl⟩, rfl, by rw [putLower_eq hl h], rfl, rfl, rfl, take_records .., fun j hj => ?_, fun j hj => ?_,
    fun j hj => ?_⟩
  · exact hothers j (by simpa using hj)
  · by_cases hjk : j = k
    · subst hjk; unfold State.raising; rw [hlease]
    · unfold State.raising; rw [(hothers j hjk).1]; exact hj
  · by_cases hjk : j = k
    · subst hjk
      have := (eligible_iff.1 hj).2
      rw [hlease] at this; cases this
    · obtain ⟨hl', hx⟩ := hothers j hjk
      rw [eligible_iff, hl', hx] at hj
      exact ⟨eligible_iff.2 hj, hl'⟩

theorem putLower_withPassDue {l : Lease} {g : RecallOrigin} {d : Nat} (hl : s.leaseOf k = some l) (h : s.raising k = false)
    (b : Bool) : (s.withPassDue b).putLower k l n g d = (s.putLower k l n g d).withPassDue b := by
  rw [putLower_eq hl h, putLower_eq (s := s.withPassDue b) hl h]; rfl

/-- A recall does nothing, or puts a LOWER on the slot's lease. -/
theorem recallOn_cases (n : Nat) (g : RecallOrigin) :
    s.recallOn k n g = s ∨ ∃ l m d, s.leaseOf k = some l ∧ s.recallOn k n g = s.putLower k l m g d := by
  unfold State.recallOn
  split
  · exact .inl rfl
  · rename_i l hl
    split
    · split <;> exact .inr ⟨l, _, _, hl, rfl⟩
    · exact .inl rfl

theorem recallOn_recalled (h : s.raising k = false) (g : RecallOrigin) : s.Recalled [k] (s.recallOn k n g) := by
  rcases recallOn_cases (s := s) (k := k) n g with hnone | ⟨l, m, d, hl, hput⟩
  · rw [hnone]; exact (State.Recalled.refl s).mono (List.nil_subset _)
  · rw [hput]; exact putLower_recalled hl h

theorem recallOn_withPassDue (h : s.raising k = false) (g : RecallOrigin) (b : Bool) :
    (s.withPassDue b).recallOn k n g = (s.recallOn k n g).withPassDue b := by
  have hlease : (s.withPassDue b).leaseOf k = s.leaseOf k := rfl
  have hset : (s.withPassDue b).settings = s.settings := rfl
  unfold State.recallOn
  rw [hlease, hset]
  split
  · rfl
  · rename_i l hl
    split
    · split <;> exact putLower_withPassDue hl h b
    · rfl

/-! ### The begin of a reclaim -/

/-- The recalls of a plan (R59). -/
def State.recalls (plan : List (Slot × Nat)) (s : State) : State := plan.foldl (fun s p => s.recallOn p.1 p.2 .preempt) s

theorem recalls_recalled {plan : List (Slot × Nat)} (h : ∀ p ∈ plan, s.raising p.1 = false) :
    s.Recalled (plan.map Prod.fst) (s.recalls plan) := by
  induction plan generalizing s with
  | nil => exact .refl s
  | cons p ps ih =>
    obtain ⟨hp, hps⟩ := List.forall_mem_cons.1 h
    have hfirst := recallOn_recalled (n := p.2) hp .preempt
    exact hfirst.trans (ih fun q hq => hfirst.raising _ (hps q hq))

theorem recalls_withPassDue {plan : List (Slot × Nat)} (h : ∀ p ∈ plan, s.raising p.1 = false) (b : Bool) :
    (s.withPassDue b).recalls plan = (s.recalls plan).withPassDue b := by
  induction plan generalizing s with
  | nil => rfl
  | cons p ps ih =>
    obtain ⟨hp, hps⟩ := List.forall_mem_cons.1 h
    have hfirst := recallOn_recalled (n := p.2) hp .preempt
    show ((s.withPassDue b).recallOn p.1 p.2 .preempt).recalls ps = ((s.recallOn p.1 p.2 .preempt).recalls ps).withPassDue b
    rw [recallOn_withPassDue hp, ih fun q hq => hfirst.raising _ (hps q hq)]

theorem beginReclaim_eq (e : Entry) (n : Nat) (plan : List (Slot × Nat)) (s : State) : s.beginReclaim e n plan =
    { s.recalls plan with
      notices := (s.recalls plan).notices.take .reclaimBegin (some e.slot) .preempt false n
      alloc := { (s.recalls plan).alloc with reclaim := some ⟨e.slot, e.tag, n, plan.map Prod.fst⟩ } } := rfl

theorem beginReclaim_withPassDue {plan : List (Slot × Nat)} (h : ∀ p ∈ plan, s.raising p.1 = false) (b : Bool) :
    (s.withPassDue b).beginReclaim e n plan = (s.beginReclaim e n plan).withPassDue b := by
  rw [beginReclaim_eq, beginReclaim_eq, recalls_withPassDue h]; rfl

/-- The begin of a reclaim changes leases and the record, and nothing else in the Allocator (R59). -/
theorem alloc_beginReclaim {plan : List (Slot × Nat)} (h : ∀ p ∈ plan, s.raising p.1 = false) :
    (s.beginReclaim e n plan).alloc = { s.alloc with
      leases := (s.recalls plan).alloc.leases, reclaim := some ⟨e.slot, e.tag, n, plan.map Prod.fst⟩ } := by
  rw [beginReclaim_eq, (recalls_recalled h).alloc]

theorem candidate_lease (h : s.candidate k = true) : ∃ l, s.leaseOf k = some l ∧ l.trans = none ∧ (s.sessOf k).state = .on := by
  unfold State.candidate at h
  split at h
  · cases h
  · rename_i l hl
    simp only [Bool.and_eq_true, decide_eq_true_eq, Option.isNone_iff_eq_none] at h
    exact ⟨l, hl, h.1.1.2, h.1.1.1.1⟩

theorem not_raising_of_candidate (h : s.candidate k = true) : s.raising k = false := by
  obtain ⟨l, hl, hx, _⟩ := candidate_lease h
  unfold State.raising; rw [hl]; dsimp only; rw [hx]

/-- A plan is of candidates, and of one at least (R58). -/
theorem reclaimPlan_mem {ks : List Slot} {rest : Int} {plan : List (Slot × Nat)} (h : s.reclaimPlan ks rest = some plan) :
    plan ≠ [] ∧ ∀ p ∈ plan, p.1 ∈ ks := by
  induction ks generalizing rest plan with
  | nil => cases h
  | cons k ks ih =>
    unfold State.reclaimPlan at h
    split at h
    · exact ⟨(ih h).1, fun p hp => List.mem_cons_of_mem _ ((ih h).2 p hp)⟩
    · split at h
      · cases h
        exact ⟨List.cons_ne_nil _ _, fun p hp => by rw [List.mem_singleton.1 hp]; exact List.mem_cons_self ..⟩
      · obtain ⟨plan', hplan', rfl⟩ := Option.map_eq_some_iff.1 h
        refine ⟨List.cons_ne_nil _ _, fun p hp => ?_⟩
        rcases List.mem_cons.1 hp with rfl | hp
        · exact List.mem_cons_self ..
        · exact List.mem_cons_of_mem _ ((ih hplan').2 p hp)

/-- The plan of entry `e`'s reclaim (R58). -/
def State.planFor (s : State) (e : Entry) : Option (List (Slot × Nat)) :=
  s.reclaimPlan (s.shedOrder.filter s.candidate) (s.shortfall e)

theorem planFor_mem {plan : List (Slot × Nat)} (h : s.planFor e = some plan) :
    plan ≠ [] ∧ ∀ p ∈ plan, s.candidate p.1 = true :=
  ⟨(reclaimPlan_mem h).1, fun p hp => (List.mem_filter.1 ((reclaimPlan_mem h).2 p hp)).2⟩

theorem planFor_withPassDue (b : Bool) : (s.withPassDue b).planFor e = s.planFor e := by
  have hinsert : ∀ k l, (s.withPassDue b).shedInsert k l = s.shedInsert k l := by
    intro k l
    induction l with
    | nil => rfl
    | cons j js ih => unfold State.shedInsert; rw [ih]; rfl
  have horder : (s.withPassDue b).shedOrder = s.shedOrder := by
    unfold State.shedOrder; simp only [hinsert]
  have hplan : ∀ ks rest, (s.withPassDue b).reclaimPlan ks rest = s.reclaimPlan ks rest := by
    intro ks
    induction ks with
    | nil => intro _; rfl
    | cons k ks ih => intro rest; unfold State.reclaimPlan; rw [ih, ih]; rfl
  unfold State.planFor
  rw [hplan, horder]; rfl

end Sys2Proof.Machine
end

section
/-! PROOFS. What the passes of a happening are made of, and what they leave alone (R37 to R42, R59, R64). -/

namespace Sys2Proof.Machine

variable {s t u : State} {j k : Slot} {e : Entry} {n : Nat}

/-! ### The steps of a pass -/

/-- One step of a pass: the pass mark, a grant, the begin of a reclaim, or its end as UNMET. -/
inductive PassStep : State → State → Prop
  | mark (s : State) (b : Bool) : PassStep s (s.withPassDue b)
  | grant (s : State) (e : Entry) (n : Nat) (he : s.entryOf e.slot = some e) (hel : s.eligible e.slot = true) :
      PassStep s (s.grant e n)
  | reclaim (s : State) (e : Entry) (n : Nat) (plan : List (Slot × Nat)) (hp : ∀ p ∈ plan, s.candidate p.1 = true) :
      PassStep s (s.beginReclaim e n plan)
  | unmet (s : State) : PassStep s (s.endReclaim 3)

/-- Any number of steps of a pass. -/
abbrev PassSteps : State → State → Prop := Relation.ReflTransGen PassStep

/-- Entry `e` begins a reclaim with plan `plan` where the Allocator is in RUNNING (R42, R56, R58). -/
def State.Begins (s : State) (e : Entry) (plan : List (Slot × Nat)) : Prop :=
  s.alloc.reclaim = none ∧ e.cls = .essential ∧ s.settings.preempt = true ∧ 0 < s.shortfall e ∧ s.planFor e = some plan

theorem askReclaim_of_begins {plan : List (Slot × Nat)} (hs : s.alloc.state = .running) (h : s.Begins e plan) :
    s.askReclaim e = s.beginReclaim e (s.shortfall e).toNat plan := by
  obtain ⟨hr, hc, hp, hpos, hplan⟩ := h
  unfold State.planFor at hplan
  unfold State.askReclaim
  rw [if_pos ⟨hc, hp, hr, hs, hpos⟩, hplan]

theorem askReclaim_of_not_begins (h : ∀ plan, ¬ s.Begins e plan) : s.askReclaim e = s := by
  unfold State.askReclaim; split
  · rename_i hc
    obtain ⟨hc, hp, hr, _, hpos⟩ := hc
    split
    · rename_i plan hplan; exact (h plan ⟨hr, hc, hp, hpos, hplan⟩).elim
    · rfl
  · rfl

/-- An entry that asks for a reclaim begins one by its plan, or changes nothing. -/
theorem askReclaim_cases (e : Entry) (s : State) : s.askReclaim e = s ∨
    ∃ plan, s.Begins e plan ∧ s.askReclaim e = s.beginReclaim e (s.shortfall e).toNat plan := by
  by_cases hs : s.alloc.state = .running
  · by_cases h : ∃ plan, s.Begins e plan
    · obtain ⟨plan, h⟩ := h
      exact .inr ⟨plan, h, askReclaim_of_begins hs h⟩
    · exact .inl (askReclaim_of_not_begins fun plan hp => h ⟨plan, hp⟩)
  · unfold State.askReclaim
    exact .inl (if_neg fun ⟨_, _, _, hrun, _⟩ => hs hrun)

theorem State.Begins.candidates {plan : List (Slot × Nat)} (h : s.Begins e plan) :
    plan ≠ [] ∧ ∀ p ∈ plan, s.candidate p.1 = true := by
  obtain ⟨_, _, _, _, hplan⟩ := h
  exact planFor_mem hplan

/-- An entry that does not fit may be passed: BACKFILL is on and its pass count is below PASS_LIMIT (R41, R42). -/
def State.Passable (s : State) (e : Entry) : Prop := s.settings.backfill = true ∧ e.passCount < s.settings.passLimit

/-- What a walk does at the head of its list. -/
theorem walk_cons (k : Slot) (ks : List Slot) (s : State) :
    (s.entryOf k = none → State.walk (k :: ks) s = State.walk ks s) ∧
    ∀ e, s.entryOf k = some e →
      (s.eligible k = false → State.walk (k :: ks) s = State.walk ks s) ∧
      (s.eligible k = true →
        (s.grantTier e ≠ 0 → State.walk (k :: ks) s = State.walk ks (s.grant e (s.grantTier e))) ∧
        (s.grantTier e = 0 → s.Passable e → State.walk (k :: ks) s = State.walk ks (s.askReclaim e)) ∧
        (s.grantTier e = 0 → ¬ s.Passable e → State.walk (k :: ks) s = s.askReclaim e)) := by
  have hpass : ∀ e : Entry, s.Passable e ↔ (s.settings.backfill && decide (e.passCount < s.settings.passLimit)) = true := by
    intro e; rw [Bool.and_eq_true, decide_eq_true_eq]; rfl
  refine ⟨fun h => by rw [State.walk, h], fun e he => ?_⟩
  rw [State.walk, he]
  dsimp only
  refine ⟨fun hel => if_neg (by rw [hel]; decide), fun hel => ?_⟩
  rw [if_pos hel]
  refine ⟨fun ht => if_neg ht, fun ht hp => ?_, fun ht hp => ?_⟩
  · rw [if_pos ht, if_pos ((hpass e).1 hp)]
  · rw [if_pos ht, if_neg (mt (hpass e).2 hp)]

theorem PassSteps.to_askReclaim (h : PassSteps s t) : PassSteps s (t.askReclaim e) := by
  rcases askReclaim_cases e t with hno | ⟨plan, hb, heq⟩
  · rw [hno]; exact h
  · rw [heq]; exact h.tail (.reclaim t e _ plan hb.candidates.2)

theorem PassSteps.to_walk (l : List Slot) (h : PassSteps s t) : PassSteps s (State.walk l t) := by
  induction l generalizing t with
  | nil => exact h
  | cons k ks ih =>
    obtain ⟨hnone, hsome⟩ := walk_cons k ks t
    cases he : t.entryOf k with
    | none => rw [hnone he]; exact ih h
    | some e =>
      obtain ⟨hout, hin⟩ := hsome e he
      obtain rfl := slot_of_entryOf he
      cases hel : t.eligible e.slot with
      | false => rw [hout hel]; exact ih h
      | true =>
        obtain ⟨hgrant, hpass, hstop⟩ := hin hel
        by_cases ht : t.grantTier e = 0
        · by_cases hp : t.Passable e
          · rw [hpass ht hp]; exact ih h.to_askReclaim
          · rw [hstop ht hp]; exact h.to_askReclaim
        · rw [hgrant ht]; exact ih (h.tail (.grant t e _ he hel))

theorem PassSteps.to_testUnmet (h : PassSteps s t) : PassSteps s t.testUnmet := by
  unfold State.testUnmet
  split
  · exact h
  · split
    · exact (h.tail (.unmet t)).tail (.mark _ _)
    · exact h

theorem PassSteps.to_passes (n : Nat) (h : PassSteps s t) : PassSteps s (State.passes n t) := by
  induction n generalizing t with
  | zero => exact h.tail (.mark t false)
  | succ n ih =>
    unfold State.passes; split
    · exact ih (to_testUnmet (to_walk _ (h.tail (.mark t false))))
    · exact h.tail (.mark t false)

/-! ### What no step reaches -/

/-- A grant leaves every other slot's session, lease, line, ramp record and monitor record. -/
theorem grant_others (hj : j ≠ e.slot) : (s.grant e n).sessOf j = s.sessOf j ∧ (s.grant e n).leaseOf j = s.leaseOf j ∧
    (s.grant e n).lineOf j = s.lineOf j ∧ (s.grant e n).rampOf j = s.rampOf j ∧ (s.grant e n).monOf j = s.monOf j := by
  obtain ⟨h1, h2, h3, h4, h5, _⟩ := (onlyAt_letGrant (s := s.ungranted e.slot) (k := e.slot) (n := n) (o := e.origin)
    (b := decide (n < e.wanted))).others j hj
  exact ⟨(sessOf_grant j).trans h1, (leaseOf_grant j).trans h2, (lineOf_grant j).trans h3, (rampOf_grant j).trans h4,
    (monOf_grant j).trans h5⟩

/-- A grant leaves the other slots' entries, but for the pass counts. -/
theorem entryOf_grant_none (hj : s.entryOf j = none) : (s.grant e n).entryOf j = none := by
  by_cases hje : j = e.slot
  · subst hje; exact entryOf_grant_self
  · have := entryOf_isSome_ungranted (s := s) hje
    rw [hj] at this
    rw [entryOf_eq_of_queue queue_grant]
    simpa using this

/-- A grant leaves the ramp resource and the hold, and adds its slot alone to the Ramp Queue. -/
theorem path_grant : (s.grant e n).power.holder = s.power.holder ∧ (s.grant e n).power.hold = s.power.hold ∧
    ((s.grant e n).power.queue = s.power.queue ∨ (s.grant e n).power.queue =
      rampInsert (fun j => ((s.grant e n).rampOf j).cls) e.slot (s.policyOf e.slot).cls s.power.queue) := by
  cases hl : s.leaseOf e.slot with
  | some l =>
    obtain ⟨_, _, hpower, _⟩ := grant_of_lease (n := n) hl
    rw [hpower]; exact ⟨rfl, rfl, .inl rfl⟩
  | none =>
    obtain ⟨_, _, _, _, hqueue, _⟩ := grant_of_no_lease (n := n) hl
    refine ⟨?_, ?_, .inr hqueue⟩ <;> rw [power_grant, letting_none hl] <;> rfl

theorem notices_grant : s.notices.records <+: (s.grant e n).notices.records := by
  rw [grant_eq_with]
  dsimp only
  split
  · exact (take_records ..).trans (take_records ..)
  · exact take_records ..

/-- What a pass, and the end of a happening but for the ramp resource, leaves: everything outside the slots, and no new entry. -/
structure State.PassFrame (s t : State) : Prop where
  host : s.HostSame t
  raised : t.raised = s.raised
  notices : s.notices.records <+: t.notices.records
  entry : ∀ k, s.entryOf k = none → t.entryOf k = none
  holder : t.power.holder = s.power.holder
  hold : t.power.hold = s.power.hold

theorem State.PassFrame.refl (s : State) : s.PassFrame s := ⟨.refl s, rfl, List.prefix_refl _, fun _ h => h, rfl, rfl⟩

theorem State.PassFrame.trans (h : s.PassFrame t) (g : t.PassFrame u) : s.PassFrame u :=
  ⟨h.host.trans g.host, g.raised.trans h.raised, h.notices.trans g.notices, fun k hk => g.entry k (h.entry k hk),
    g.holder.trans h.holder, g.hold.trans h.hold⟩

theorem notices_endReclaim (n : Nat) : s.notices.records <+: (s.endReclaim n).notices.records := by
  unfold State.endReclaim; split
  · exact List.prefix_refl _
  · exact take_records ..

/-- What the recalls of a plan of candidates come to. -/
theorem recalls_of_candidates {plan : List (Slot × Nat)} (h : ∀ p ∈ plan, s.candidate p.1 = true) :
    s.Recalled (plan.map Prod.fst) (s.recalls plan) :=
  recalls_recalled fun p hp => not_raising_of_candidate (h p hp)

theorem queue_beginReclaim {plan : List (Slot × Nat)} (h : ∀ p ∈ plan, s.candidate p.1 = true) :
    (s.beginReclaim e n plan).alloc.queue = s.alloc.queue := by
  rw [alloc_beginReclaim fun p hp => not_raising_of_candidate (h p hp)]

theorem passStep_frame (h : PassStep s t) : s.PassFrame t := by
  cases h with
  | mark b => exact ⟨.refl s, rfl, List.prefix_refl _, fun _ h => h, rfl, rfl⟩
  | grant e n he _ =>
    refine ⟨hostSame_grant, ?_, notices_grant, fun _ => entryOf_grant_none, path_grant.1, path_grant.2.1⟩
    rw [grant_eq_with]
    exact (onlyAt_letGrant (s := s.ungranted e.slot) (k := e.slot)).raised
  | reclaim e n plan hp =>
    have hr := recalls_of_candidates hp
    refine ⟨hr.host, hr.raised, hr.notices.trans (take_records ..), fun k hk => ?_, congrArg PowerPath.holder hr.power,
      congrArg PowerPath.hold hr.power⟩
    exact (entryOf_eq_of_queue (queue_beginReclaim hp)).trans hk
  | unmet =>
    obtain ⟨_, _, hpower, _⟩ := endReclaim_frame (s := s) (n := 3)
    have honly := onlyAt_endReclaim (s := s) (k := 0) (n := 3)
    exact ⟨honly.host, honly.raised, notices_endReclaim 3, fun k hk => (entryOf_endReclaim 3 k).trans hk,
      congrArg PowerPath.holder hpower, congrArg PowerPath.hold hpower⟩

theorem passSteps_frame (h : PassSteps s t) : s.PassFrame t := by
  induction h with
  | refl => exact .refl s
  | tail _ hm ih => exact ih.trans (passStep_frame hm)

/-! ### Slots that no step reaches -/

/-- Slot `k` has no entry, and its lease, if any, is none that a reclaim may lower: no pass has anything to do with it. -/
def State.SetAside (s : State) (k : Slot) : Prop :=
  s.entryOf k = none ∧ ∀ l, s.leaseOf k = some l → l.trans = none → (s.sessOf k).state ≠ .on

theorem State.SetAside.not_candidate (h : s.SetAside k) : s.candidate k = false := by
  by_contra hc
  obtain ⟨l, hl, hx, hs⟩ := candidate_lease (by simpa using hc)
  exact h.2 l hl hx hs

theorem State.SetAside.same (h : s.SetAside k) (hs : s.SameSlot t k) : t.SetAside k := by
  obtain ⟨hsess, hlease, _, _, _, hentry⟩ := hs
  unfold State.SetAside
  rw [hentry, hlease, hsess]; exact h

theorem State.SameSlot.trans (h : s.SameSlot t k) (g : t.SameSlot u k) : s.SameSlot u k := by
  obtain ⟨h1, h2, h3, h4, h5, h6⟩ := h
  obtain ⟨g1, g2, g3, g4, g5, g6⟩ := g
  exact ⟨g1.trans h1, g2.trans h2, g3.trans h3, g4.trans h4, g5.trans h5, g6.trans h6⟩

theorem State.SameSlot.rampOf (h : s.SameSlot t k) : t.rampOf k = s.rampOf k := by
  obtain ⟨_, _, _, h, _⟩ := h; exact h

theorem State.SameSlot.leaseOf (h : s.SameSlot t k) : t.leaseOf k = s.leaseOf k := by
  obtain ⟨_, h, _⟩ := h; exact h

theorem State.SameSlot.entryOf (h : s.SameSlot t k) : t.entryOf k = s.entryOf k := by
  obtain ⟨_, _, _, _, _, h⟩ := h; exact h

/-- Slot `k` stands as it stood, and the Ramp Queue holds it and begins with it, where it is ESSENTIAL, as before. -/
structure State.Untouched (s t : State) (k : Slot) : Prop where
  slot : s.SameSlot t k
  queue : k ∈ t.power.queue ↔ k ∈ s.power.queue
  head : (s.rampOf k).cls = .essential → s.power.queue.head? = some k → t.power.queue.head? = some k

theorem State.Untouched.of_power (hs : s.SameSlot t k) (hq : t.power.queue = s.power.queue) : s.Untouched t k :=
  ⟨hs, by rw [hq], fun _ h => by rw [hq]; exact h⟩

theorem State.Untouched.trans (h : s.Untouched t k) (g : t.Untouched u k) : s.Untouched u k :=
  ⟨h.slot.trans g.slot, g.queue.trans h.queue, fun hc hh => g.head (by rw [h.slot.rampOf]; exact hc) (h.head hc hh)⟩

/-- A slot that joins the Ramp Queue goes behind an ESSENTIAL head (R117). -/
theorem head?_rampInsert {cls : Slot → PowerClass} {c : PowerClass} {q : List Slot} (hk : cls k = .essential)
    (hq : q.head? = some k) : (rampInsert cls j c q).head? = some k := by
  cases q with
  | nil => cases hq
  | cons i is =>
    cases hq
    unfold rampInsert
    rw [if_neg fun hc => by rw [hk] at hc; cases hc.2]
    rfl

theorem passStep_untouched (h : PassStep s t) (hk : s.SetAside k) : s.Untouched t k := by
  cases h with
  | mark b => exact .of_power ⟨rfl, rfl, rfl, rfl, rfl, rfl⟩ rfl
  | grant e n he _ =>
    have hne : k ≠ e.slot := by
      rintro rfl
      rw [hk.1] at he; cases he
    obtain ⟨hsess, hlease, hline, hramp, hmon⟩ := grant_others (s := s) (n := n) hne
    have hslot : s.SameSlot (s.grant e n) k :=
      ⟨hsess, hlease, hline, hramp, hmon, (entryOf_grant_none hk.1).trans hk.1.symm⟩
    rcases path_grant (s := s) (e := e) (n := n) with ⟨_, _, hq | hq⟩
    · exact .of_power hslot hq
    · refine ⟨hslot, ?_, fun hc hh => ?_⟩
      · rw [hq, mem_rampInsert]; exact or_iff_right hne
      · rw [hq]; exact head?_rampInsert (by rw [hramp]; exact hc) hh
  | reclaim e n plan hp =>
    have hr := recalls_of_candidates hp
    have hout : k ∉ plan.map Prod.fst := by
      intro hmem
      obtain ⟨p, hin, rfl⟩ := List.mem_map.1 hmem
      have := hk.not_candidate
      rw [hp p hin] at this; cases this
    obtain ⟨hlease, hline⟩ := hr.others k hout
    refine .of_power ⟨?_, hlease, hline, ?_, ?_, entryOf_eq_of_queue (queue_beginReclaim hp)⟩ (congrArg PowerPath.queue hr.power)
    · exact congrArg (fun x => PerSlot.get x k) hr.sess
    · exact congrArg (fun x => PerSlot.get (PowerPath.slots x) k) hr.power
    · exact congrArg (fun x => PerSlot.get (Monitor.slots x) k) hr.mon
  | unmet =>
    obtain ⟨hsess, hline, hpower, hmon, hleases, _, hqueue⟩ := endReclaim_frame (s := s) (n := 3)
    refine .of_power ⟨?_, ?_, ?_, ?_, ?_, entryOf_eq_of_queue hqueue⟩ (congrArg PowerPath.queue hpower)
    · exact congrArg (fun x => PerSlot.get x k) hsess
    · exact congrArg (fun x => PerSlot.get x k) hleases
    · exact congrArg (fun x => PerSlot.get x k) hline
    · exact congrArg (fun x => PerSlot.get (PowerPath.slots x) k) hpower
    · exact congrArg (fun x => PerSlot.get (Monitor.slots x) k) hmon

theorem passSteps_untouched (h : PassSteps s t) (hk : s.SetAside k) : s.Untouched t k := by
  induction h with
  | refl => exact .of_power ⟨rfl, rfl, rfl, rfl, rfl, rfl⟩ rfl
  | tail _ hm ih => exact ih.trans (passStep_untouched hm (hk.same ih.slot))

end Sys2Proof.Machine
end

section
/-! PROOFS. The end of a happening: the end of shedding, the passes and the handing on of the ramp resource (R37 to R42, R59, R64, R71,
R118). -/

namespace Sys2Proof.Machine

variable {s t u : State} {j k : Slot} {e : Entry} {n : Nat}

/-! ### The parts of the end of a happening -/

theorem withPassDue_self {b : Bool} (h : s.alloc.passDue = b) : s.withPassDue b = s := by subst h; rfl

theorem testShedEnd_of_not (h : ¬ (s.alloc.state = .shedding ∧ s.alloc.committed ≤ s.available)) : s.testShedEnd = s := if_neg h

theorem testShedEnd_of_running (h : s.alloc.state = .running) : s.testShedEnd = s :=
  testShedEnd_of_not fun hc => by rw [h] at hc; cases hc.1

/-- No pass runs where none is due, or outside RUNNING (R37). -/
theorem passes_of_idle (n : Nat) (h : s.alloc.state = .running → s.alloc.passDue = false) :
    State.passes n s = s.withPassDue false := by
  cases n with
  | zero => rfl
  | succ n =>
    unfold State.passes
    refine if_neg fun hc => ?_
    obtain ⟨hd, hr⟩ := (Bool.and_eq_true _ _).mp hc
    rw [h (of_decide_eq_true hr)] at hd; cases hd

theorem passes_of_due (n : Nat) (hs : s.alloc.state = .running) (hd : s.alloc.passDue = true) :
    State.passes (n + 1) s = State.passes n s.pass := if_pos (by rw [hs, hd]; rfl)

theorem handOn_of_busy (h : s.power.holder ≠ none ∨ s.power.hold = true ∨ s.power.queue = []) : s.handOn = s := by
  unfold State.handOn; split
  · rename_i h1 h2 h3
    rw [h1, h2, h3] at h
    rcases h with h | h | h
    · exact absurd rfl h
    · cases h
    · cases h
  · rfl

theorem handOn_of_free {rest : List Slot} (hh : s.power.holder = none) (hp : s.power.hold = false)
    (hq : s.power.queue = k :: rest) : s.handOn = s.startRamp k := by
  unfold State.handOn; rw [hh, hp, hq]

/-- The start of a ramp, field by field (R119). -/
theorem startRamp_eq {rest : List Slot} (hq : s.power.queue = k :: rest) (hk : k ∉ rest) : s.startRamp k = { s with
    power := { s.power with
      queue := rest, holder := some k
      slots := s.power.slots.set k { s.rampOf k with state := .ramping, gate := true, timer := s.settings.rampTimeout } }
    mon := { s.mon with
      slots := s.mon.slots.set k { s.monOf k with watchArmed := true, watchTag := (s.rampOf k).tag, watchCount := 0 } }
    sess := s.sess.set k { s.sessOf k with state := .ramping } } := by
  have hrest : s.power.queue.filter (fun j => j != k) = rest := by
    rw [hq, List.filter_cons_of_neg (by simp), filter_ne_of_notMem hk]
  have htag : ((s.power.slots.set k
      { s.rampOf k with state := .ramping, gate := true, timer := s.settings.rampTimeout }).get k).tag = (s.rampOf k).tag := by
    rw [PerSlot.get_set_self]
  rw [← hrest, ← htag]; rfl

theorem finish_of_idle (hs : ¬ (s.alloc.state = .shedding ∧ s.alloc.committed ≤ s.available))
    (hd : s.alloc.state = .running → s.alloc.passDue = false) : s.finish = (s.withPassDue false).handOn := by
  unfold State.finish; rw [testShedEnd_of_not hs, passes_of_idle 4 hd]

theorem finish_of_running (hs : s.alloc.state = .running) (hd : s.alloc.passDue = false) : s.finish = s.handOn := by
  rw [finish_of_idle (fun hc => by rw [hs] at hc; cases hc.1) (fun _ => hd), withPassDue_self hd]

theorem finish_of_due (hs : s.alloc.state = .running) (hd : s.alloc.passDue = true) :
    s.finish = (State.passes 3 s.pass).handOn := by
  unfold State.finish; rw [testShedEnd_of_running hs, passes_of_due 3 hs hd]

/-- A settled state is left as it is. -/
theorem finish_of_settled (h : s.Settled) : s.finish = s := by
  obtain ⟨hd, hs, hp⟩ := h
  rw [finish_of_idle (fun hc => absurd (hs hc.1) (Nat.not_lt.2 hc.2)) (fun _ => hd), withPassDue_self hd]
  refine handOn_of_busy ?_
  by_contra hc
  rw [not_or, not_or, not_not, Bool.not_eq_true] at hc
  obtain ⟨hh, hold, hq⟩ := hc
  exact hq (hp hh hold)

theorem finish_of_shed (hs : s.alloc.state = .shedding) (hc : s.alloc.committed ≤ s.available) : s.finish = State.finish { s with
    notices := s.notices.take .shedEnd none .none false s.alloc.committed
    alloc := { s.alloc with
      state := if s.alloc.sagCondition = true then .sagHold else .running, passDue := true } } := by
  have htest : s.testShedEnd = { s with
      notices := s.notices.take .shedEnd none .none false s.alloc.committed
      alloc := { s.alloc with
        state := if s.alloc.sagCondition = true then .sagHold else .running, passDue := true } } := if_pos ⟨hs, hc⟩
  unfold State.finish
  rw [htest, testShedEnd_of_not]
  dsimp only
  rintro ⟨hx, _⟩
  split at hx <;> cases hx

/-! ### What the end of a happening leaves alone -/

theorem testShedEnd_frame : s.PassFrame s.testShedEnd ∧ s.testShedEnd.power = s.power ∧ ∀ k, s.SameSlot s.testShedEnd k := by
  unfold State.testShedEnd; split
  · exact ⟨⟨⟨rfl, rfl, rfl, rfl, rfl⟩, rfl, take_records .., fun _ h => h, rfl, rfl⟩, rfl, fun _ => ⟨rfl, rfl, rfl, rfl, rfl, rfl⟩⟩
  · exact ⟨.refl s, rfl, fun _ => ⟨rfl, rfl, rfl, rfl, rfl, rfl⟩⟩

/-- The handing on reaches the head of the Ramp Queue only, and there neither lease nor entry nor line. -/
theorem handOn_frame : s.HostSame s.handOn ∧ s.handOn.raised = s.raised ∧ s.handOn.notices = s.notices ∧ s.handOn.alloc = s.alloc ∧
    s.handOn.line = s.line ∧ ∀ k, k ∉ s.power.queue → s.SameSlot s.handOn k := by
  unfold State.handOn; split
  · rename_i j js _ _ hq
    refine ⟨⟨rfl, rfl, rfl, rfl, rfl⟩, rfl, rfl, rfl, rfl, fun k hk => ?_⟩
    have hne : k ≠ j := by rintro rfl; exact hk (by rw [hq]; exact List.mem_cons_self ..)
    exact ⟨PerSlot.get_set_ne _ _ hne, rfl, rfl, PerSlot.get_set_ne _ _ hne, PerSlot.get_set_ne _ _ hne, rfl⟩
  · exact ⟨.refl s, rfl, rfl, rfl, rfl, fun _ _ => ⟨rfl, rfl, rfl, rfl, rfl, rfl⟩⟩

theorem passes_steps (n : Nat) : PassSteps s (State.passes n s) := PassSteps.to_passes n .refl

/-- Neither the Host Port nor the happenings raised are reached, and no slot gets an entry. -/
theorem finish_frame : s.HostSame s.finish ∧ s.finish.raised = s.raised ∧ ∀ k, s.entryOf k = none → s.finish.entryOf k = none := by
  obtain ⟨hframe, _⟩ := testShedEnd_frame (s := s)
  have hpass := hframe.trans (passSteps_frame (passes_steps 4))
  obtain ⟨hhost, hraised, _, halloc, _⟩ := handOn_frame (s := State.passes 4 s.testShedEnd)
  refine ⟨hpass.host.trans hhost, hraised.trans hpass.raised, fun k hk => ?_⟩
  exact (entryOf_eq_of_queue (congrArg Allocator.queue halloc)).trans (hpass.entry k hk)

/-- A slot without a lease, an entry or a place in the Ramp Queue stands as it stood. -/
theorem finish_sameSlot (hl : s.leaseOf k = none) (he : s.entryOf k = none) (hq : k ∉ s.power.queue) : s.SameSlot s.finish k := by
  obtain ⟨_, hpower, hslot⟩ := testShedEnd_frame (s := s)
  have haside : s.testShedEnd.SetAside k :=
    State.SetAside.same ⟨he, fun l hl' => by rw [hl] at hl'; cases hl'⟩ (hslot k)
  have hpass := passSteps_untouched (passes_steps 4) haside
  have hout : k ∉ (State.passes 4 s.testShedEnd).power.queue := by rw [hpass.queue, hpower]; exact hq
  obtain ⟨_, _, _, _, _, hhead⟩ := handOn_frame (s := State.passes 4 s.testShedEnd)
  exact (hslot k).trans (hpass.slot.trans (hhead k hout))

/-! ### The entries that a pass steps over -/

theorem entryOf_of_mem (h : s.EntryLaw) (he : e ∈ s.alloc.queue) : s.entryOf e.slot = some e := by
  unfold State.EntryLaw at h
  unfold State.entryOf
  generalize s.alloc.queue = q at h he
  induction q with
  | nil => cases he
  | cons x xs ih =>
    rw [List.map_cons, List.nodup_cons] at h
    rcases List.mem_cons.1 he with rfl | he
    · exact List.find?_cons_of_pos (by simp)
    · rw [List.find?_cons_of_neg, ih h.2 he]
      intro hx
      exact h.1 (List.mem_map.2 ⟨e, he, (by simpa using hx : x.slot = e.slot).symm⟩)

/-- A walk steps over entry `e`: it may not be tested, or it does not fit, may be passed, and begins no reclaim (R38, R42). -/
def State.StepsOver (s : State) (e : Entry) : Prop :=
  s.eligible e.slot = false ∨ s.grantTier e = 0 ∧ s.Passable e ∧ s.askReclaim e = s

theorem walk_stepsOver {ahead : List Entry} (ks : List Slot) (h : ∀ x ∈ ahead, s.entryOf x.slot = some x ∧ s.StepsOver x) :
    State.walk (ahead.map Entry.slot ++ ks) s = State.walk ks s := by
  induction ahead with
  | nil => rfl
  | cons x xs ih =>
    obtain ⟨⟨hx, hover⟩, hxs⟩ := List.forall_mem_cons.1 h
    obtain ⟨hout, hin⟩ := (walk_cons x.slot (xs.map Entry.slot ++ ks) s).2 x hx
    refine Eq.trans ?_ (ih hxs)
    show State.walk (x.slot :: (xs.map Entry.slot ++ ks)) s = _
    cases hel : s.eligible x.slot with
    | false => exact hout hel
    | true =>
      obtain ⟨ht, hp, hask⟩ := hover.resolve_left (by rw [hel]; decide)
      rw [(hin hel).2.1 ht hp, hask]

/-! ### A pass is the last -/

/-- The reclaim, if one is active, has victims, and its beneficiary is none of the slots `l`. -/
def State.ReclaimBeyond (s : State) (l : List Slot) : Prop := ∀ r, s.alloc.reclaim = some r → r.victims ≠ [] ∧ r.slot ∉ l

/-- A grant to another than the beneficiary is no cause of a pass: no commitment falls (R37). -/
theorem passDue_grant (hel : s.eligible e.slot = true) (hb : s.isBeneficiary e.slot = false) :
    (s.grant e n).alloc.passDue = s.alloc.passDue := by
  rw [grant_eq_with, hb, Bool.false_and]
  dsimp only
  rw [Bool.or_false]
  cases hl : s.leaseOf e.slot with
  | some l =>
    rw [letting_some hl]
    have hx := eligible_trans hel hl
    have hle : ∀ x, Lease.term ((s.ungranted e.slot).leaseOf e.slot) ≤ Lease.term (some { l with trans := x }) := by
      intro x
      rw [show (s.ungranted e.slot).leaseOf e.slot = some l from hl]
      show max l.draw (Transition.raiseDraw l.trans) ≤ _
      rw [hx]
      exact max_le_max le_rfl (Nat.zero_le _)
    exact passDue_setLease_of_le (hle _)
  | none =>
    rw [letting_none hl]
    have hle : ∀ l, Lease.term ((s.ungranted e.slot).leaseOf e.slot) ≤ Lease.term l := by
      intro l
      rw [show (s.ungranted e.slot).leaseOf e.slot = none from hl]
      exact Nat.zero_le _
    exact passDue_setLease_of_le (hle _)

theorem State.ReclaimBeyond.isBeneficiary {l : List Slot} (h : s.ReclaimBeyond l) (hk : k ∈ l) : s.isBeneficiary k = false := by
  by_contra hb
  obtain ⟨r, hr, rfl⟩ := isBeneficiary_iff.1 (by simpa using hb)
  exact (h r hr).2 hk

theorem State.ReclaimBeyond.tail {ks : List Slot} (h : s.ReclaimBeyond (k :: ks)) : s.ReclaimBeyond ks :=
  fun r hr => ⟨(h r hr).1, fun hk => (h r hr).2 (List.mem_cons_of_mem _ hk)⟩

/-- An entry that asks for a reclaim is no cause of a pass, and the reclaim that it may begin is its own. -/
theorem askReclaim_beyond {ks : List Slot} (h : s.ReclaimBeyond (e.slot :: ks)) (hk : e.slot ∉ ks) :
    (s.askReclaim e).alloc.passDue = s.alloc.passDue ∧ (s.askReclaim e).ReclaimBeyond ks := by
  rcases askReclaim_cases e s with hno | ⟨plan, hb, heq⟩
  · rw [hno]; exact ⟨rfl, h.tail⟩
  · obtain ⟨hne, hcand⟩ := hb.candidates
    have halloc := alloc_beginReclaim (e := e) (n := (s.shortfall e).toNat) fun p hp => not_raising_of_candidate (hcand p hp)
    rw [heq]
    unfold State.ReclaimBeyond
    rw [halloc]
    refine ⟨rfl, fun r hr => ?_⟩
    cases hr
    exact ⟨fun hx => hne (List.map_eq_nil_iff.1 hx), hk⟩

/-- A walk that does not come to the beneficiary leaves the pass mark (R37). -/
theorem walk_beyond {l : List Slot} (hl : l.Nodup) (h : s.ReclaimBeyond l) :
    (State.walk l s).alloc.passDue = s.alloc.passDue ∧ (State.walk l s).ReclaimBeyond [] := by
  induction l generalizing s with
  | nil => exact ⟨rfl, h⟩
  | cons k ks ih =>
    obtain ⟨hk, hks⟩ := List.nodup_cons.1 hl
    obtain ⟨hnone, hsome⟩ := walk_cons k ks s
    cases he : s.entryOf k with
    | none => rw [hnone he]; exact ih hks h.tail
    | some e =>
      obtain ⟨hout, hin⟩ := hsome e he
      obtain rfl := slot_of_entryOf he
      cases hel : s.eligible e.slot with
      | false => rw [hout hel]; exact ih hks h.tail
      | true =>
        obtain ⟨hgrant, hpass, hstop⟩ := hin hel
        obtain ⟨hdue, hbeyond⟩ := askReclaim_beyond h hk
        by_cases ht : s.grantTier e = 0
        · by_cases hp : s.Passable e
          · rw [hpass ht hp, ← hdue]; exact ih hks hbeyond
          · rw [hstop ht hp]; exact ⟨hdue, fun r hr => ⟨(hbeyond r hr).1, List.not_mem_nil⟩⟩
        · have hb := h.isBeneficiary (List.mem_cons_self ..)
          rw [hgrant ht, ← passDue_grant (n := s.grantTier e) hel hb]
          refine ih hks fun r hr => h.tail r ?_
          rw [grant_eq_with, hb] at hr
          exact hr

theorem testUnmet_of_beyond (h : s.ReclaimBeyond []) : s.testUnmet = s := by
  unfold State.testUnmet; split
  · rfl
  · rename_i r hr; exact if_neg (h r hr).1

/-- After a pass that begins without a reclaim no further one is due (R37). -/
theorem passDue_pass (hlaw : s.EntryLaw) (hr : s.alloc.reclaim = none) : s.pass.alloc.passDue = false := by
  have hbeyond : (s.withPassDue false).ReclaimBeyond (s.alloc.queue.map Entry.slot) := fun r hx => by
    rw [show (s.withPassDue false).alloc.reclaim = none from hr] at hx; cases hx
  obtain ⟨hdue, hend⟩ := walk_beyond hlaw hbeyond
  show (State.walk _ (s.withPassDue false)).testUnmet.alloc.passDue = false
  rw [testUnmet_of_beyond hend]
  exact hdue

/-! ### The walk of a due pass -/

/-- A pass is a walk from the head of the queue, and the test for UNMET after it (R37, R64). -/
theorem pass_eq (s : State) : s.pass = (State.walk (s.alloc.queue.map Entry.slot) (s.withPassDue false)).testUnmet := rfl

/-- A walk that leaves all as it is: the pass ends, and a reclaim without victims ends as UNMET (R64). -/
theorem finish_of_still (hlaw : s.EntryLaw) (hs : s.alloc.state = .running) (hd : s.alloc.passDue = true)
    (hw : State.walk (s.alloc.queue.map Entry.slot) (s.withPassDue false) = s.withPassDue false) :
    (s.alloc.reclaim = none → s.finish = (s.withPassDue false).finish) ∧
    (∀ r, s.alloc.reclaim = some r → r.victims ≠ [] → s.finish = (s.withPassDue false).finish) ∧
    (∀ r, s.alloc.reclaim = some r → r.victims = [] → s.finish = State.finish { s with
      notices := s.notices.take .reclaimEnd (some r.slot) .preempt false 3
      alloc := { s.alloc with passDue := true, reclaim := none, earmark := 0 } }) := by
  have hdone : s.ReclaimBeyond [] → s.finish = (s.withPassDue false).finish := by
    intro hb
    have hpass : s.pass = s.withPassDue false := by rw [pass_eq, hw]; exact testUnmet_of_beyond (s := s.withPassDue false) hb
    rw [finish_of_due hs hd, hpass, finish_of_running (s := s.withPassDue false) hs rfl, passes_of_idle 3 (fun _ => rfl)]; rfl
  refine ⟨fun hr => hdone fun r hr' => (by rw [hr] at hr'; cases hr'), fun r hr hv => hdone fun r' hr' => ?_, fun r hr hv => ?_⟩
  · rw [hr] at hr'; cases hr'
    exact ⟨hv, List.not_mem_nil⟩
  · generalize hx : ({ s with
      notices := s.notices.take .reclaimEnd (some r.slot) .preempt false 3
      alloc := { s.alloc with passDue := true, reclaim := none, earmark := 0 } } : State) = x
    have hpass : s.pass = x := by
      rw [pass_eq, hw, ← hx]
      unfold State.testUnmet State.endReclaim
      rw [show (s.withPassDue false).alloc.reclaim = some r from hr]
      dsimp only
      rw [if_pos hv]
      unfold State.wantPass
      simp only [Bool.or_true]
      rfl
    have hrun : x.alloc.state = .running := by rw [← hx]; exact hs
    have hlast : x.pass.alloc.passDue = false := passDue_pass (by rw [← hx]; exact hlaw) (by rw [← hx])
    have hdue : x.alloc.passDue = true := by rw [← hx]
    rw [finish_of_due hs hd, hpass, finish_of_due hrun hdue, passes_of_due 2 hrun hdue, passes_of_idle 2 (fun _ => hlast),
      passes_of_idle 3 (fun _ => hlast)]

/-- The begin of a reclaim leaves the tests of entries that do not fit as they were, or makes them stepped over. -/
theorem stepsOver_beginReclaim {plan : List (Slot × Nat)} {x : Entry} (hm : s.alloc.earmark = 0)
    (hp : ∀ p ∈ plan, s.candidate p.1 = true) (hx : s.eligible x.slot = false ∨ s.grantTier x = 0 ∧ s.Passable x) :
    (s.beginReclaim e n plan).StepsOver x := by
  have hrecalled := recalls_of_candidates hp
  have halloc := alloc_beginReclaim (e := e) (n := n) fun p hx => not_raising_of_candidate (hp p hx)
  have hel := hrecalled.eligible x.slot
  obtain ⟨_, hcmd, _⟩ := hrecalled.host
  change (s.beginReclaim e n plan).eligible x.slot = true → _ ∧ (s.beginReclaim e n plan).leaseOf x.slot = _ at hel
  change (s.beginReclaim e n plan).cmd = s.cmd at hcmd
  have hsess : (s.beginReclaim e n plan).sess = s.sess := hrecalled.sess
  generalize s.beginReclaim e n plan = t at *
  cases htel : t.eligible x.slot with
  | false => exact .inl htel
  | true =>
    obtain ⟨hsel, hlease⟩ := hel htel
    obtain ⟨htier, hback, hcount⟩ := hx.resolve_left (by rw [hsel]; decide)
    have hset : t.settings = s.settings := congrArg CommandUnit.settings hcmd
    have hpolicy : t.policyOf x.slot = s.policyOf x.slot := by unfold State.policyOf; rw [hcmd]
    have hdraw : t.drawOf x.slot = s.drawOf x.slot := by
      funext m; exact drawOf_congr (by unfold State.sessOf; rw [hsess]) m
    have hfloor : t.floorOf x.slot = s.floorOf x.slot := congrArg PolicyRecord.floorTerm hpolicy
    have hcommitment : t.commitment x.slot = s.commitment x.slot := by unfold State.commitment; rw [hfloor, hlease]
    have hneed : t.need x.slot = s.need x.slot := by
      funext m; unfold State.need; rw [hfloor, hdraw, hcommitment]
    have hfree : t.free = s.free := by unfold State.free State.available; rw [hset, halloc]
    have hbudget : t.budgetFor x.slot = s.budgetFor x.slot := by
      unfold State.budgetFor
      rw [hfree, halloc, hm, Nat.cast_zero, add_zero, ite_self, ite_self]
    have hlow : t.lowestTier x = s.lowestTier x := by unfold State.lowestTier; rw [hlease]
    refine .inr ⟨?_, ⟨by rw [hset]; exact hback, by rw [hset]; exact hcount⟩, askReclaim_of_not_begins fun q hq => ?_⟩
    · unfold State.grantTier at htier ⊢
      rw [hlow, hdraw, hpolicy, hneed, hbudget]; exact htier
    · have := hq.1
      rw [halloc] at this; cases this

/-- Where the walk passes the entry whose reclaim begins, the pass runs as one that finds the reclaim begun (R42, R59). -/
theorem finish_of_passed_begin {plan : List (Slot × Nat)} {ahead behind : List Entry} (hlaw : s.EntryLaw)
    (hs : s.alloc.state = .running) (hd : s.alloc.passDue = true) (hq : s.alloc.queue = ahead ++ e :: behind)
    (hahead : ∀ x ∈ ahead, (s.withPassDue false).StepsOver x) (hel : s.eligible e.slot = true) (ht : s.grantTier e = 0)
    (hp : s.Passable e) (hb : s.Begins e plan) (hm : s.alloc.earmark = 0) :
    s.finish = (s.beginReclaim e (s.shortfall e).toNat plan).finish := by
  obtain ⟨_, hcand⟩ := hb.candidates
  have hraise : ∀ p ∈ plan, s.raising p.1 = false := fun p hp => not_raising_of_candidate (hcand p hp)
  have hmem : ∀ x ∈ s.alloc.queue, (s.withPassDue false).entryOf x.slot = some x := fun x hx => entryOf_of_mem hlaw hx
  have hb' : (s.withPassDue false).Begins e plan := by
    obtain ⟨h1, h2, h3, h4, h5⟩ := hb
    exact ⟨h1, h2, h3, h4, (planFor_withPassDue false).trans h5⟩
  have halloc := alloc_beginReclaim (e := e) (n := (s.shortfall e).toNat) hraise
  have hcommute := beginReclaim_withPassDue (e := e) (n := (s.shortfall e).toNat) hraise false
  have hover : ∀ x ∈ ahead ++ [e], (s.beginReclaim e (s.shortfall e).toNat plan |>.withPassDue false).StepsOver x := by
    intro x hx
    rw [← hcommute]
    refine stepsOver_beginReclaim (s := s.withPassDue false) hm hcand ?_
    rcases List.mem_append.1 hx with hx | hx
    · exact (hahead x hx).imp id fun h => ⟨h.1, h.2.1⟩
    · rw [List.mem_singleton.1 hx]; exact .inr ⟨ht, hp⟩
  generalize hz : s.beginReclaim e (s.shortfall e).toNat plan = z at *
  have hqueue : z.alloc.queue = s.alloc.queue := by rw [halloc]
  have hwalk : State.walk (s.alloc.queue.map Entry.slot) (s.withPassDue false) =
      State.walk (behind.map Entry.slot) (z.withPassDue false) := by
    rw [hq, List.map_append, walk_stepsOver _ fun x hx => ⟨hmem x (by rw [hq]; exact List.mem_append_left _ hx), hahead x hx⟩,
      List.map_cons]
    have he := hmem e (by rw [hq]; exact List.mem_append_right _ (List.mem_cons_self ..))
    rw [((((walk_cons e.slot _ _).2 e he).2 hel).2.1 ht hp), askReclaim_of_begins (s := s.withPassDue false) hs hb']
    exact congrArg (State.walk _) hcommute
  have hwalk' : State.walk (z.alloc.queue.map Entry.slot) (z.withPassDue false) =
      State.walk (behind.map Entry.slot) (z.withPassDue false) := by
    have hsplit : z.alloc.queue.map Entry.slot = (ahead ++ [e]).map Entry.slot ++ behind.map Entry.slot := by
      rw [hqueue, hq]; simp
    rw [hsplit]
    refine walk_stepsOver _ fun x hx => ⟨?_, hover x hx⟩
    refine (entryOf_eq_of_queue (s := s) hqueue).trans (hmem x ?_)
    rw [hq]
    rcases List.mem_append.1 hx with hx | hx
    · exact List.mem_append_left _ hx
    · rw [List.mem_singleton.1 hx]; exact List.mem_append_right _ (List.mem_cons_self ..)
  have hpass : s.pass = z.pass := by rw [pass_eq, pass_eq, hwalk, hwalk']
  rw [finish_of_due hs hd, finish_of_due (s := z) (by rw [halloc]; exact hs) (by rw [halloc]; exact hd), hpass]

/-- Where the entry whose reclaim begins may not be passed, the pass ends with it (R42, R59). -/
theorem finish_of_begin {plan : List (Slot × Nat)} (hs : s.alloc.state = .running) (hd : s.alloc.passDue = true)
    (hb : s.Begins e plan) (hw : State.walk (s.alloc.queue.map Entry.slot) (s.withPassDue false) =
      (s.withPassDue false).beginReclaim e (s.shortfall e).toNat plan) :
    s.finish = ((s.withPassDue false).beginReclaim e (s.shortfall e).toNat plan).finish := by
  obtain ⟨hne, hcand⟩ := hb.candidates
  have halloc := alloc_beginReclaim (s := s.withPassDue false) (e := e) (n := (s.shortfall e).toNat)
    fun p hp => not_raising_of_candidate (hcand p hp)
  have hpass : s.pass = (s.withPassDue false).beginReclaim e (s.shortfall e).toNat plan := by
    rw [pass_eq, hw]
    refine testUnmet_of_beyond fun r hr => ⟨fun hv => ?_, List.not_mem_nil⟩
    rw [halloc] at hr; cases hr
    exact hne (List.map_eq_nil_iff.1 hv)
  generalize (s.withPassDue false).beginReclaim e (s.shortfall e).toNat plan = z at *
  have hdue : z.alloc.passDue = false := by rw [halloc]; rfl
  rw [finish_of_due hs hd, hpass, finish_of_running (by rw [halloc]; exact hs) hdue, passes_of_idle 3 (fun _ => hdue),
    withPassDue_self hdue]

/-! ### A grant of the pass -/

/-- The slot of a grant is set aside for the rest of the happening. -/
theorem grant_setAside : (s.grant e n).SetAside e.slot := by
  refine ⟨entryOf_grant_self, fun l hl hx => ?_⟩
  cases hlease : s.leaseOf e.slot with
  | some l' =>
    rw [(grant_of_lease hlease).1] at hl
    cases hl; cases hx
  | none => rw [(grant_of_no_lease hlease).2.1]; exact fun h => nomatch h

/-- A new ESSENTIAL slot goes to the head of a Ramp Queue in which none waits (R117). -/
theorem head?_queue_grant (hl : s.leaseOf e.slot = none) (hc : (s.policyOf e.slot).cls = .essential)
    (hq : ∀ j ∈ s.power.queue, (s.rampOf j).cls = .deferrable) : (s.grant e n).power.queue.head? = some e.slot := by
  obtain ⟨_, _, hramp, _, hqueue, _⟩ := grant_of_no_lease (n := n) hl
  rw [hqueue, hc]
  cases hpq : s.power.queue with
  | nil => rfl
  | cons j js =>
    by_cases hj : j = e.slot
    · exact head?_rampInsert (by rw [hramp]; exact hc) (by rw [hj]; rfl)
    · obtain ⟨_, _, _, hsame, _⟩ := grant_others (s := s) (n := n) hj
      unfold rampInsert
      rw [if_pos ⟨rfl, by rw [hsame]; exact hq j (by rw [hpq]; exact List.mem_cons_self ..)⟩]
      rfl

/-- What is left of a grant when the happening has ended, and that an ESSENTIAL slot it lets in ramps before those that wait. -/
theorem finish_of_grant (hs : s.alloc.state = .running) (hd : s.alloc.passDue = true) {ks : List Slot}
    (hw : State.walk (s.alloc.queue.map Entry.slot) (s.withPassDue false) = State.walk ks ((s.withPassDue false).grant e n)) :
    s.finish.entryOf e.slot = none ∧ s.finish.leaseOf e.slot = (s.grant e n).leaseOf e.slot ∧
    (s.grant e n).notices.records <+: s.finish.notices.records ∧
    (s.leaseOf e.slot = none → (s.policyOf e.slot).cls = .essential → s.power.holder = none → s.power.hold = false →
      (∀ j ∈ s.power.queue, (s.rampOf j).cls = .deferrable) →
      s.finish.power.holder = some e.slot ∧ (s.finish.sessOf e.slot).state = .ramping) := by
  have hsteps : PassSteps ((s.withPassDue false).grant e n) (State.passes 3 s.pass) := by
    rw [pass_eq, hw]
    exact PassSteps.to_passes 3 (PassSteps.to_testUnmet (PassSteps.to_walk ks .refl))
  have hframe := passSteps_frame hsteps
  have hslot := passSteps_untouched hsteps grant_setAside
  rw [finish_of_due hs hd]
  generalize State.passes 3 s.pass = z at *
  obtain ⟨_, _, hnotices, halloc, _, _⟩ := handOn_frame (s := z)
  refine ⟨?_, ?_, ?_, fun hl hc hh hp hq => ?_⟩
  · exact (entryOf_eq_of_queue (congrArg Allocator.queue halloc)).trans (hslot.slot.entryOf.trans entryOf_grant_self)
  · have hlease : ((s.withPassDue false).grant e n).leaseOf e.slot = (s.grant e n).leaseOf e.slot := by
      cases hl : s.leaseOf e.slot with
      | some l => exact (grant_of_lease (s := s.withPassDue false) hl).1.trans (grant_of_lease hl).1.symm
      | none => exact (grant_of_no_lease (s := s.withPassDue false) hl).1.trans (grant_of_no_lease hl).1.symm
    exact (congrArg (fun a => PerSlot.get (Allocator.leases a) e.slot) halloc).trans (hslot.slot.leaseOf.trans hlease)
  · rw [hnotices]
    have hsame : ((s.withPassDue false).grant e n).notices = (s.grant e n).notices := by
      rw [grant_eq_with, grant_eq_with]; rfl
    rw [← hsame]; exact hframe.notices
  · obtain ⟨hholder, hhold, _⟩ := path_grant (s := s.withPassDue false) (e := e) (n := n)
    obtain ⟨_, _, hramp, _⟩ := grant_of_no_lease (s := s.withPassDue false) (n := n) hl
    have hcls : (((s.withPassDue false).grant e n).rampOf e.slot).cls = .essential := by rw [hramp]; exact hc
    have hhead := hslot.head hcls (head?_queue_grant (s := s.withPassDue false) hl hc hq)
    obtain ⟨js, hjs⟩ := List.head?_eq_some_iff.1 hhead
    rw [handOn_of_free (hframe.holder.trans (hholder.trans hh)) (hframe.hold.trans (hhold.trans hp)) hjs]
    exact ⟨rfl, by rw [sessOf_startRamp, if_pos rfl]⟩

/-- An entry that may not be tested: its link is LOST, or its lease carries a transition (R38). -/
theorem not_eligible_iff : s.eligible k = false ↔
    (s.lineOf k).lost = true ∨ ∃ l x, s.leaseOf k = some l ∧ l.trans = some x := by
  rw [← Bool.not_eq_true, eligible_iff, not_and_or, Bool.not_eq_false]
  refine or_congr Iff.rfl ?_
  rcases s.leaseOf k with _ | ⟨_, _, _, _, _ | x⟩ <;> simp

theorem begins_withPassDue (b : Bool) {plan : List (Slot × Nat)} : (s.withPassDue b).Begins e plan ↔ s.Begins e plan := by
  unfold State.Begins
  rw [planFor_withPassDue]; rfl

/-- Settles O52: each case of the end of a happening by the lemma that says it. -/
theorem finishEndsTheHappening : Obligations.FinishEndsTheHappening := by
  unfold Obligations.FinishEndsTheHappening
  intro s
  obtain ⟨hhost, hraised, _⟩ := finish_frame (s := s)
  refine ⟨finish_of_settled, settled_finish, hhost, hraised, fun k => finish_sameSlot, finish_of_shed, fun hd hs => ?_,
    fun hlaw hs hd => ?_⟩
  · have hidle := finish_of_idle (fun hc => absurd (hs hc.1) (Nat.not_lt.2 hc.2)) hd
    refine ⟨fun hb => hidle.trans (handOn_of_busy hb), fun k rest hh hp hq hk => ?_⟩
    rw [hidle, handOn_of_free (s := s.withPassDue false) hh hp hq, startRamp_eq (s := s.withPassDue false) hq hk]; rfl
  · have hmem : ∀ x ∈ s.alloc.queue, (s.withPassDue false).entryOf x.slot = some x := fun x hx => entryOf_of_mem hlaw hx
    have hover : ∀ x, (((s.lineOf x.slot).lost = true ∨ ∃ l y, s.leaseOf x.slot = some l ∧ l.trans = some y) ∨
        s.grantTier x = 0 ∧ s.Passable x ∧ ∀ p, ¬ s.Begins x p) → (s.withPassDue false).StepsOver x := by
      rintro x (hx | ⟨ht, hp, hb⟩)
      · exact .inl (not_eligible_iff.2 hx)
      · exact .inr ⟨ht, hp, askReclaim_of_not_begins fun p h => hb p ((begins_withPassDue false).1 h)⟩
    refine ⟨fun hall => finish_of_still hlaw hs hd ?_, fun ahead e behind hq hahead hstep => ?_⟩
    · have := walk_stepsOver (s := s.withPassDue false) [] fun x hx => ⟨hmem x hx, hover x (hall x hx)⟩
      rwa [List.append_nil] at this
    have hel : s.eligible e.slot = true := by
      by_contra hc
      exact hstep (not_eligible_iff.1 (by simpa using hc))
    have hwalk : State.walk (s.alloc.queue.map Entry.slot) (s.withPassDue false) =
        State.walk (e.slot :: behind.map Entry.slot) (s.withPassDue false) := by
      rw [hq, List.map_append]
      exact walk_stepsOver _ fun x hx => ⟨hmem x (by rw [hq]; exact List.mem_append_left _ hx), hover x (hahead x hx)⟩
    obtain ⟨hgrant, _, hstop⟩ := ((walk_cons e.slot (behind.map Entry.slot) (s.withPassDue false)).2 e
      (hmem e (by rw [hq]; exact List.mem_append_right _ (List.mem_cons_self ..)))).2 hel
    refine ⟨fun ht hp => ?_, fun p ht hp hb hm => ?_, fun t ht h1 => ?_⟩
    · have hask := hwalk.trans (hstop ht hp)
      have hstill := fun h : ∀ p, ¬ s.Begins e p => finish_of_still hlaw hs hd
        (hask.trans (askReclaim_of_not_begins fun p hb => h p ((begins_withPassDue false).1 hb)))
      have hactive : ∀ r, s.alloc.reclaim = some r → ∀ p, ¬ s.Begins e p := fun r hr p hb => by
        have hnone := hb.1
        rw [hr] at hnone; cases hnone
      refine ⟨fun hr hb => (hstill hb).1 hr, fun p hb => ?_, fun r hr => (hstill (hactive r hr)).2.1 r hr,
        fun r hr => (hstill (hactive r hr)).2.2 r hr⟩
      exact finish_of_begin hs hd hb
        (hask.trans (askReclaim_of_begins (s := s.withPassDue false) hs ((begins_withPassDue false).2 hb)))
    · exact finish_of_passed_begin hlaw hs hd hq (fun x hx => hover x (hahead x hx)) hel ht hp hb hm
    · subst ht
      exact finish_of_grant hs hd (hwalk.trans (hgrant (Nat.one_le_iff_ne_zero.1 h1)))

end Sys2Proof.Machine
end

section
/-! PROOFS. A CLAIM: the checks, the refusal, the join in queue order, the replacement of an entry and the answer (R26 to R31, R35). -/

namespace Sys2Proof.Machine

variable {s t u : State} {j k : Slot} {e old : Entry} {o : EntryOrigin} {r : Reason} {w l : Nat}

/-! ### The checks -/

/-- The first check that a claim fails, as the model finds it (R27). -/
theorem claimFails_iff : s.ClaimFails k w l r ↔ s.admission k w l = some r := by
  have htier : s.ClaimFails k w l r ↔
      if w < 1 ∨ s.tiersOf k < w ∨ l < 1 ∨ s.tiersOf k < l ∨ w < l then r = .badList
      else if (s.sessOf k).admitFlag = false then r = .notAdmitted
      else if s.raising k = true then r = .inTransition
      else if w ≤ s.claimTier k then r = .notHigher
      else if (s.policyOf k).cap < s.drawOf k l then r = .overCap
      else if s.available + s.floorOf k < max (s.floorOf k) (s.drawOf k l) + s.floorSum then r = .neverFits
      else False := by
    unfold State.ClaimFails State.raising State.claimTier
    rcases s.leaseOf k with _ | ⟨_, _, _, _, _ | _ | _⟩ <;> exact Iff.rfl
  rw [htier]
  unfold State.admission State.overCap State.neverFits
  simp only [decide_eq_true_eq]
  split_ifs <;> simp [eq_comm]

/-- The session is in a state in which a CLAIM is taken, under its own tag (R81, R84). -/
def State.HearsClaim (s : State) (k : Slot) (g : Byte) : Prop :=
  s.store.startDone = true ∧ ((s.sessOf k).state = .standby ∨ (s.sessOf k).state = .on) ∧ g = (s.sessOf k).tag

theorem exec_claim {g w l : Byte} (h : s.HearsClaim k g) : exec (.claim k g w l) s = .next
    (State.answerClaim k (State.takeClaim k .claim w.toNat l.toNat (s.taken (.claim k g w l))).finish) := by
  obtain ⟨hd, hs, hg⟩ := h
  have htag : g = (s.taken (.claim k g w l)).frameTag k := by
    unfold State.frameTag
    rw [State.sessOf_taken, if_pos (by rcases hs with hs | hs <;> rw [hs] <;> rfl)]
    exact hg
  have hhear : ∀ v : State, v.sess = s.sess →
      v.hearClaim k w.toNat l.toNat = (v.takeClaim k .claim w.toNat l.toNat).finish.answerClaim k := by
    intro v hv
    unfold State.hearClaim
    rw [show v.sessOf k = s.sessOf k from congrArg (fun x => PerSlot.get x k) hv]
    rcases hs with hs | hs <;> rw [hs]
  refine congrArg Host.Outcome.next ?_
  unfold State.whenLoaded State.dispatch
  rw [if_pos (show (s.taken (.claim k g w l)).store.startDone = true from hd), if_pos htag]
  exact hhear _ rfl

/-! ### The end of a reclaim -/

theorem abandonReclaim_of_beneficiary (h : s.isBeneficiary k = true) : s.abandonReclaim = { s with
    alloc := { s.alloc with reclaim := none, earmark := 0, passDue := s.alloc.passDue || decide (0 < s.alloc.earmark) }
    notices := s.notices.take .reclaimEnd (some k) .preempt false 2 } := by
  obtain ⟨r, hr, rfl⟩ := isBeneficiary_iff.1 h
  unfold State.abandonReclaim State.endReclaim
  rw [hr]; rfl

/-! ### A claim refused -/

theorem takeClaim_refused (ho : o ≠ .restore) (h : s.admission k w l = some r) : s.takeClaim k o w l = s.refuseClaim k o r w := by
  unfold State.takeClaim
  split
  · rw [h]
  · dsimp only
    rw [if_neg ho, h]

theorem refuseClaim_of_none (ho : o ≠ .host) (he : s.entryOf k = none) : s.refuseClaim k o r w =
    (s.modLine k (Line.queueClaim (.deny r))).post .denied (some k) r w := by
  unfold State.refuseClaim
  simp only [he, ho, Option.isSome_none, Bool.and_false, Bool.false_eq_true, false_and, if_false]

theorem refuseClaim_of_entry (ho : o ≠ .host) (he : (s.entryOf k).isSome = true) : s.refuseClaim k o r w =
    let t := (((s.unqueue k).wantPass true).modLine k (Line.queueClaim (.deny r))).post .denied (some k) r w
    if s.isBeneficiary k = true then t.abandonReclaim else t := by
  unfold State.refuseClaim
  simp only [he, ho, Bool.and_true, false_and, if_false, if_true]

/-- What the refusal of a claim leaves (R29, R35). -/
theorem refuseClaim_parts (ho : o ≠ .host) : State.OnlyAt k s (s.refuseClaim k o r w) ∧ (s.refuseClaim k o r w).entryOf k = none ∧
    (s.refuseClaim k o r w).sess = s.sess ∧ (s.refuseClaim k o r w).alloc.leases = s.alloc.leases ∧
    (s.refuseClaim k o r w).alloc.committed = s.alloc.committed ∧ (s.refuseClaim k o r w).power = s.power ∧
    (s.refuseClaim k o r w).mon = s.mon ∧ (s.refuseClaim k o r w).line = s.line.set k ((s.lineOf k).queueClaim (.deny r)) := by
  by_cases he : s.entryOf k = none
  · rw [refuseClaim_of_none ho he]
    exact ⟨onlyAt_modLine.trans onlyAt_post, he, rfl, rfl, rfl, rfl, rfl, rfl⟩
  · rw [refuseClaim_of_entry ho (Option.isSome_iff_ne_none.2 he)]
    have honly := ((onlyAt_unqueue (s := s) (k := k)).trans (onlyAt_wantPass (b := true))).trans
      ((onlyAt_modLine (f := Line.queueClaim (.deny r))).trans (onlyAt_post (n := .denied) (o := some k) (r := r) (v := w)))
    dsimp only
    split
    · obtain ⟨h1, h2, h3, h4, h5, h6, h7⟩ := endReclaim_frame (n := 2)
        (s := (((s.unqueue k).wantPass true).modLine k (Line.queueClaim (.deny r))).post .denied (some k) r w)
      exact ⟨honly.trans onlyAt_endReclaim, (entryOf_eq_of_queue h7).trans entryOf_unqueue_self, h1, h5, h6, h3, h4, h2⟩
    · exact ⟨honly, entryOf_unqueue_self, rfl, rfl, rfl, rfl, rfl, rfl⟩

/-- What the refusal of a claim does to pass mark, reclaim and notices (R29, R63). -/
theorem refuseClaim_reclaim (ho : o ≠ .host) : s.PassDueBy (s.refuseClaim k o r w) ((s.entryOf k).isSome = true) ∧
    ((s.entryOf k).isSome = true → s.isBeneficiary k = true →
      (s.refuseClaim k o r w).alloc.reclaim = none ∧ (s.refuseClaim k o r w).alloc.earmark = 0 ∧
      (s.refuseClaim k o r w).notices = (s.notices.take .denied (some k) r false w).take .reclaimEnd (some k) .preempt false 2) ∧
    (s.entryOf k = none ∨ s.isBeneficiary k = false →
      (s.refuseClaim k o r w).alloc.reclaim = s.alloc.reclaim ∧ (s.refuseClaim k o r w).alloc.earmark = s.alloc.earmark ∧
      (s.refuseClaim k o r w).notices = s.notices.take .denied (some k) r false w) := by
  unfold State.PassDueBy
  by_cases he : s.entryOf k = none
  · rw [refuseClaim_of_none ho he, he]
    exact ⟨⟨fun h => (by cases h), fun _ => rfl⟩, fun h => (by cases h), fun _ => ⟨rfl, rfl, rfl⟩⟩
  · have hsome := Option.isSome_iff_ne_none.2 he
    rw [refuseClaim_of_entry ho hsome]
    dsimp only
    cases hb : s.isBeneficiary k with
    | true =>
      have hb' : State.isBeneficiary
          ((((s.unqueue k).wantPass true).modLine k (Line.queueClaim (.deny r))).post .denied (some k) r w) k = true := hb
      rw [if_pos rfl, abandonReclaim_of_beneficiary hb']
      refine ⟨⟨fun _ => ?_, fun h => absurd hsome h⟩, fun _ _ => ⟨rfl, rfl, rfl⟩, fun h => ?_⟩
      · show (s.alloc.passDue || true || _) = true
        rw [Bool.or_true, Bool.true_or]
      · rcases h with h | h
        · exact absurd h he
        · cases h
    | false =>
      rw [if_neg Bool.false_ne_true]
      exact ⟨⟨fun _ => Bool.or_true _, fun h => absurd hsome h⟩, fun _ h => (by cases h), fun _ => ⟨rfl, rfl, rfl⟩⟩

/-- The end of a happening raises no entry. -/
theorem entryOf_finish_none (h : s.entryOf k = none) : s.finish.entryOf k = none := by
  obtain ⟨_, _, hentry⟩ := finish_frame (s := s)
  exact hentry k h

/-- No answer to a claim goes out where no entry stands. -/
theorem answerClaim_of_none (h : s.entryOf k = none) : s.answerClaim k = s := by
  unfold State.answerClaim; rw [h]

/-- Settles O30: the refusal is the model's, and the end of the happening raises no entry that HOLD would answer. -/
theorem aClaimThatFailsACheckIsDenied : Obligations.AClaimThatFailsACheckIsDenied := by
  unfold Obligations.AClaimThatFailsACheckIsDenied
  intro k g wanted least s r hd hs hg hfail
  have hadm : (s.taken (.claim k g wanted least)).admission k wanted.toNat least.toNat = some r := claimFails_iff.1 hfail
  have hclaim : EntryOrigin.claim ≠ .host := by decide
  obtain ⟨honly, hentry, hsess, hleases, hcommitted, hpower, hmon, hline⟩ :=
    refuseClaim_parts (s := s.taken (.claim k g wanted least)) (k := k) (r := r) (w := wanted.toNat) hclaim
  obtain ⟨hdue, hben, hother⟩ :=
    refuseClaim_reclaim (s := s.taken (.claim k g wanted least)) (k := k) (r := r) (w := wanted.toNat) hclaim
  refine ⟨_, ?_, honly.raised, honly.host, honly.others, hentry, hsess, hleases, hcommitted, hpower, hmon, ?_, hdue, hben, hother⟩
  · rw [exec_claim ⟨hd, hs, hg⟩, takeClaim_refused (by decide) hadm, answerClaim_of_none (entryOf_finish_none hentry)]
  · rw [show State.lineOf _ k = _ from congrArg (fun x => PerSlot.get x k) hline, PerSlot.get_set_self]
    exact Line.queueClaim_after (m := .deny r) (fun _ _ h => nomatch h) _

/-! ### A claim that joins -/

/-- The entry of a claim (R22). -/
def State.newEntry (s : State) (k : Slot) (o : EntryOrigin) (w l : Nat) : Entry :=
  { slot := k, tag := (s.sessOf k).tag, origin := o, wanted := w, least := l, cls := (s.policyOf k).cls, rank := (s.policyOf k).rank,
    passCount := 0 }

theorem takeClaim_joined (he : s.entryOf k = none) (h : s.admission k w l = none) : s.takeClaim k o w l =
    let t := (s.joinEntry (s.newEntry k o w l)).wantPass true
    t.post .queued (some k) o.reason (t.positionOf k) := by
  unfold State.takeClaim; rw [he]; dsimp only; rw [h]; rfl

theorem entryOf_of_split {ahead behind : List Entry} (hq : s.alloc.queue = ahead ++ e :: behind) (he : e.slot = k)
    (ha : ∀ x ∈ ahead, x.slot ≠ k) : s.entryOf k = some e := by
  unfold State.entryOf
  rw [hq, List.find?_append, List.find?_eq_none.2 (fun x hx => by simpa using ha x hx), Option.none_or,
    List.find?_cons_of_pos (by simpa using he)]

theorem positionOf_of_split {ahead behind : List Entry} (hq : s.alloc.queue = ahead ++ e :: behind) (he : e.slot = k)
    (ha : ∀ x ∈ ahead, x.slot ≠ k) : s.positionOf k = ahead.length := by
  unfold State.positionOf
  rw [hq]
  clear hq
  induction ahead with
  | nil => simp [List.findIdx_cons, he]
  | cons x xs ih =>
    obtain ⟨hx, hxs⟩ := List.forall_mem_cons.1 ha
    rw [List.cons_append, List.findIdx_cons, show (x.slot == k) = false by simpa using hx, ih hxs]
    rfl

theorem onlyAt_joinEntry (he : s.entryOf e.slot = none) : State.OnlyAt e.slot s (s.joinEntry e) :=
  ⟨⟨rfl, rfl, rfl, rfl, rfl⟩, fun j hj => ⟨rfl, rfl, rfl, rfl, rfl, (entryOf_joinEntry he j).trans (if_neg hj)⟩, rfl, rfl, rfl, rfl, rfl⟩

/-- A new entry joins in queue order, and QUEUED carries its position (R24, R26). -/
theorem takeClaim_joins (he : s.entryOf k = none) (h : s.admission k w l = none) :
    ∃ pos, s.Joined (s.takeClaim k o w l) (s.newEntry k o w l) pos ∧
      (s.takeClaim k o w l).notices = s.notices.take .queued (some k) o.reason false pos := by
  obtain ⟨ahead, behind, hq, hins, hbehind, hlast⟩ := insertEntry_split (s.newEntry k o w l) s.alloc.queue
  have hahead : ∀ x ∈ ahead, x.slot ≠ k := fun x hx => by
    have := List.find?_eq_none.1 he x (by rw [hq]; exact List.mem_append_left _ hx)
    simpa using this
  rw [takeClaim_joined he h]
  refine ⟨ahead.length, ⟨⟨ahead, behind, hq, hins, rfl, hbehind, hlast⟩, Bool.or_true _⟩, ?_⟩
  rw [← positionOf_of_split (s := (s.joinEntry (s.newEntry k o w l)).wantPass true) (k := k) hins rfl hahead]
  rfl

/-! ### A claim that replaces -/

/-- What follows the replacement of the beneficiary's claim: an upward one abandons the reclaim, a downward one lowers its
shortfall (R29). -/
def State.afterReplace (k : Slot) (old new : Entry) (s : State) : State :=
  if s.isBeneficiary k = false then s else if old.wanted < new.wanted then s.abandonReclaim else s.lowerShortfall new

theorem takeClaim_replaced (ho : o ≠ .restore) (he : s.entryOf k = some old) (h : s.admission k w l = none) : s.takeClaim k o w l =
    (((s.retier k o w l).wantPass true).post .queued (some k) o.reason ((s.retier k o w l).positionOf k)).afterReplace k old
      { old with origin := o, wanted := w, least := l } := by
  unfold State.takeClaim State.afterReplace
  rw [he]
  dsimp only
  rw [if_neg ho, h]
  dsimp only
  simp only [ho, false_or]
  rfl

theorem onlyAt_retier : State.OnlyAt k s (s.retier k o w l) := by
  refine ⟨⟨rfl, rfl, rfl, rfl, rfl⟩, fun j hj => ⟨rfl, rfl, rfl, rfl, rfl, ?_⟩, rfl, rfl, rfl, rfl, rfl⟩
  rw [entryOf_retier]
  cases s.entryOf j with
  | none => rfl
  | some x => exact congrArg some (if_neg hj)

/-- The replacement in the queue: the entry has its new tiers in its place (R29). -/
theorem queue_retier {ahead behind : List Entry} (hq : s.alloc.queue = ahead ++ e :: behind) (he : e.slot = k)
    (ha : ∀ x ∈ ahead, x.slot ≠ k) (hb : ∀ x ∈ behind, x.slot ≠ k) : (s.retier k o w l).alloc.queue =
      ahead ++ { e with origin := o, wanted := w, least := l } :: behind := by
  have hkeep : ∀ q : List Entry, (∀ x ∈ q, x.slot ≠ k) → q.map (fun x =>
      if x.slot == k then { x with origin := o, wanted := w, least := l } else x) = q := fun q hx =>
    (List.map_congr_left fun x hm => if_neg (by simpa using hx x hm)).trans (List.map_id' q)
  show s.alloc.queue.map _ = _
  rw [hq, List.map_append, List.map_cons, hkeep ahead ha, hkeep behind hb, if_pos (by simpa using he)]

theorem lowerShortfall_of_some {rec : Reclaim} (h : s.alloc.reclaim = some rec) : ∃ n : Nat,
    (n : Int) = max 1 (min (rec.shortfall : Int) (s.shortfall e)) ∧ s.lowerShortfall e = { s with alloc := { s.alloc with
      reclaim := some { rec with shortfall := n }, earmark := min s.alloc.earmark n } } := by
  refine ⟨max 1 (min (rec.shortfall : Int) (s.shortfall e)).toNat, by omega, ?_⟩
  unfold State.lowerShortfall; rw [h]

/-- What follows a replacement changes pass mark, reclaim, earmark and notices only (R29). -/
theorem afterReplace_parts (new : Entry) : State.OnlyAt k s (s.afterReplace k old new) ∧
    (s.afterReplace k old new).sess = s.sess ∧ (s.afterReplace k old new).line = s.line ∧
    (s.afterReplace k old new).alloc.leases = s.alloc.leases ∧ (s.afterReplace k old new).alloc.committed = s.alloc.committed ∧
    (s.afterReplace k old new).power = s.power ∧ (s.afterReplace k old new).mon = s.mon ∧
    (s.afterReplace k old new).alloc.queue = s.alloc.queue := by
  unfold State.afterReplace
  split
  · exact ⟨.refl s k, rfl, rfl, rfl, rfl, rfl, rfl, rfl⟩
  · split
    · obtain ⟨h1, h2, h3, h4, h5, h6, h7⟩ := endReclaim_frame (s := s) (n := 2)
      exact ⟨onlyAt_endReclaim, h1, h2, h5, h6, h3, h4, h7⟩
    · unfold State.lowerShortfall
      split
      · exact ⟨.refl s k, rfl, rfl, rfl, rfl, rfl, rfl, rfl⟩
      · exact ⟨⟨⟨rfl, rfl, rfl, rfl, rfl⟩, fun _ _ => ⟨rfl, rfl, rfl, rfl, rfl, rfl⟩, rfl, rfl, rfl, rfl, rfl⟩,
          rfl, rfl, rfl, rfl, rfl, rfl, rfl⟩

/-- What the taking of a claim that passes its checks leaves alone. -/
theorem takeClaim_passed_parts (ho : o ≠ .restore) (h : s.admission k w l = none) : State.OnlyAt k s (s.takeClaim k o w l) ∧
    (s.takeClaim k o w l).sess = s.sess ∧ (s.takeClaim k o w l).line = s.line ∧
    (s.takeClaim k o w l).alloc.leases = s.alloc.leases ∧ (s.takeClaim k o w l).alloc.committed = s.alloc.committed ∧
    (s.takeClaim k o w l).power = s.power ∧ (s.takeClaim k o w l).mon = s.mon := by
  cases he : s.entryOf k with
  | none =>
    rw [takeClaim_joined he h]
    have hjoin := onlyAt_joinEntry (s := s) (e := s.newEntry k o w l) he
    exact ⟨(hjoin.trans onlyAt_wantPass).trans onlyAt_post, rfl, rfl, rfl, rfl, rfl, rfl⟩
  | some old =>
    rw [takeClaim_replaced ho he h]
    obtain ⟨honly, h1, h2, h3, h4, h5, h6, _⟩ := afterReplace_parts (k := k) (old := old)
      (s := ((s.retier k o w l).wantPass true).post .queued (some k) o.reason ((s.retier k o w l).positionOf k))
      { old with origin := o, wanted := w, least := l }
    exact ⟨((onlyAt_retier.trans onlyAt_wantPass).trans onlyAt_post).trans honly, h1, h2, h3, h4, h5, h6⟩

/-- What the replacement of an entry does to queue, reclaim and notices (R29). -/
theorem takeClaim_replaces {ahead behind : List Entry} (ho : o ≠ .restore) (h : s.admission k w l = none)
    (hq : s.alloc.queue = ahead ++ e :: behind) (he : e.slot = k) (ha : ∀ x ∈ ahead, x.slot ≠ k) (hb : ∀ x ∈ behind, x.slot ≠ k) :
    let e' : Entry := { e with origin := o, wanted := w, least := l }
    let queued := s.notices.take .queued (some k) o.reason false ahead.length
    let u := s.takeClaim k o w l
    u.alloc.queue = ahead ++ e' :: behind ∧ u.alloc.passDue = true ∧
    (s.isBeneficiary k = false → u.alloc.reclaim = s.alloc.reclaim ∧ u.alloc.earmark = s.alloc.earmark ∧ u.notices = queued) ∧
    (s.isBeneficiary k = true → e.wanted < w → u.alloc.reclaim = none ∧ u.alloc.earmark = 0 ∧
      u.notices = queued.take .reclaimEnd (some k) .preempt false 2) ∧
    (∀ rec, s.alloc.reclaim = some rec → rec.slot = k → w ≤ e.wanted → u.notices = queued ∧
      ∃ n : Nat, u.alloc.reclaim = some { rec with shortfall := n } ∧ u.alloc.earmark = min s.alloc.earmark n ∧
        (n : Int) = max 1 (min (rec.shortfall : Int) (s.shortfall e'))) := by
  dsimp only
  rw [takeClaim_replaced ho (entryOf_of_split hq he ha) h]
  have hqueue := queue_retier (o := o) (w := w) (l := l) hq he ha hb
  have hpos : (s.retier k o w l).positionOf k = ahead.length := positionOf_of_split hqueue he ha
  rw [hpos]
  generalize hv : (((s.retier k o w l).wantPass true).post .queued (some k) o.reason ahead.length) = v
  have hdue : v.alloc.passDue = true := by rw [← hv]; exact Bool.or_true _
  have hnotices : v.notices = s.notices.take .queued (some k) o.reason false ahead.length := by rw [← hv]; rfl
  have hreclaim : v.alloc.reclaim = s.alloc.reclaim := by rw [← hv]; rfl
  have hearmark : v.alloc.earmark = s.alloc.earmark := by rw [← hv]; rfl
  have hben : v.isBeneficiary k = s.isBeneficiary k := isBeneficiary_congr (by rw [hreclaim])
  have hshort : ∀ x, v.shortfall x = s.shortfall x := by intro x; rw [← hv]; rfl
  refine ⟨?_, ?_, fun hb => ?_, fun hb hlt => ?_, fun rec hr hk hle => ?_⟩
  · obtain ⟨_, _, _, _, _, _, _, hsame⟩ := afterReplace_parts (s := v) (k := k) (old := e)
      { e with origin := o, wanted := w, least := l }
    rw [hsame, ← hv]; exact hqueue
  · unfold State.afterReplace
    split
    · exact hdue
    · split
      · rw [abandonReclaim_of_beneficiary (k := k) (by simpa using ‹¬ v.isBeneficiary k = false›)]
        show (v.alloc.passDue || _) = true
        rw [hdue, Bool.true_or]
      · unfold State.lowerShortfall; split <;> exact hdue
  · unfold State.afterReplace
    rw [if_pos (hben.trans hb)]
    exact ⟨hreclaim, hearmark, hnotices⟩
  · unfold State.afterReplace
    rw [if_neg (by rw [hben, hb]; decide), if_pos hlt, abandonReclaim_of_beneficiary (k := k) (hben.trans hb)]
    exact ⟨rfl, rfl, by rw [← hnotices]⟩
  · have hb : v.isBeneficiary k = true := hben.trans (isBeneficiary_iff.2 ⟨rec, hr, hk⟩)
    obtain ⟨n, hn, heq⟩ := lowerShortfall_of_some (e := { e with origin := o, wanted := w, least := l }) (hreclaim.trans hr)
    unfold State.afterReplace
    rw [if_neg (by rw [hb]; decide), if_neg (Nat.not_lt.2 hle), heq]
    exact ⟨hnotices, n, rfl, by rw [← hearmark], by rw [hn, hshort]⟩

/-! ### The answer -/

/-- A claim that still waits is answered HOLD with its position (R31). -/
theorem answerClaim_of_split {ahead behind : List Entry} (hq : s.alloc.queue = ahead ++ e :: behind) (he : e.slot = k)
    (ha : ∀ x ∈ ahead, x.slot ≠ k) : s.answerClaim k = s.modLine k (Line.queueClaim (.hold ahead.length)) := by
  unfold State.answerClaim
  rw [entryOf_of_split hq he ha]
  dsimp only
  rw [positionOf_of_split hq he ha]

/-- Settles O31: the join and the replacement are the model's, and the answer follows the end of the happening. -/
theorem aClaimThatPassesWaitsInOrder : Obligations.AClaimThatPassesWaitsInOrder := by
  unfold Obligations.AClaimThatPassesWaitsInOrder
  intro k g wanted least s hd hs hg hpass
  have hadm : (s.taken (.claim k g wanted least)).admission k wanted.toNat least.toNat = none := by
    by_contra hc
    obtain ⟨r, hr⟩ := Option.ne_none_iff_exists'.1 hc
    exact hpass r (claimFails_iff.2 hr)
  have horigin : EntryOrigin.claim ≠ .restore := by decide
  obtain ⟨honly, hsess, hline, hleases, hcommitted, hpower, hmon⟩ := takeClaim_passed_parts horigin hadm
  refine ⟨_, _, exec_claim ⟨hd, hs, hg⟩, honly.raised, honly.host, honly.others, hsess, hline, hleases, hcommitted, hpower, hmon,
    answerClaim_of_none, fun ahead e behind hq he ha => ?_, fun he => ?_, fun ahead e behind hq he ha hb => ?_⟩
  · rw [answerClaim_of_split hq he ha]
    refine ⟨rfl, fun j hj => by rw [State.lineOf_modLine, if_neg hj], ?_⟩
    rw [State.lineOf_modLine, if_pos rfl]
    exact Line.queueClaim_after (m := .hold _) (fun _ _ h => nomatch h) _
  · obtain ⟨pos, hjoined, hnotices⟩ := takeClaim_joins (s := s.taken (.claim k g wanted least)) (o := .claim) he hadm
    subst hg
    refine ⟨pos, hjoined, hnotices, ?_, ?_⟩ <;> rw [takeClaim_joined (s := s.taken _) he hadm] <;> rfl
  · obtain ⟨hqueue, hdue, hother, hup, hdown⟩ := takeClaim_replaces (s := s.taken (.claim k g wanted least)) horigin hadm hq he ha hb
    refine ⟨hqueue, hdue, hother, hup, fun rec hr hk hle => ?_⟩
    obtain ⟨hnotices, n, hreclaim, hearmark, hn⟩ := hdown rec hr hk hle
    subst he
    exact ⟨hnotices, n, hreclaim, hearmark, hn⟩

end Sys2Proof.Machine
end

section
/-! PROOFS. The shedding order, the plan of a reclaim over its candidates, and the recalls that a plan begins with (R57 to R59, R62). -/

namespace Sys2Proof.Machine

variable {s : State} {j k : Slot}

/-! ### The shedding order -/

theorem PowerClass.weight_lt {a b : PowerClass} : a.weight < b.weight ↔ a = .deferrable ∧ b = .essential := by
  cases a <;> cases b <;> decide

theorem PowerClass.weight_inj {a b : PowerClass} : a.weight = b.weight ↔ a = b := by
  cases a <;> cases b <;> decide

/-- The order of R62 by class, rank and slot. -/
theorem shedsBefore_iff : s.shedsBefore j k = true ↔
    (s.policyOf j).cls = .deferrable ∧ (s.policyOf k).cls = .essential ∨ (s.policyOf j).cls = (s.policyOf k).cls ∧
      ((s.policyOf j).rank < (s.policyOf k).rank ∨ (s.policyOf j).rank = (s.policyOf k).rank ∧ k < j) := by
  unfold State.shedsBefore
  simp only [Bool.or_eq_true, Bool.and_eq_true, decide_eq_true_eq, PowerClass.weight_lt, PowerClass.weight_inj]

/-- The order of R62 by the number that each part of the key comes to. -/
theorem shedsBefore_iff_key : s.shedsBefore j k = true ↔ (s.policyOf j).cls.weight < (s.policyOf k).cls.weight ∨
    (s.policyOf j).cls.weight = (s.policyOf k).cls.weight ∧
      ((s.policyOf j).rank < (s.policyOf k).rank ∨ (s.policyOf j).rank = (s.policyOf k).rank ∧ k.val < j.val) := by
  unfold State.shedsBefore
  simp only [Bool.or_eq_true, Bool.and_eq_true, decide_eq_true_eq, Fin.lt_def]

theorem shedsBefore_trans {i : Slot} (h : s.shedsBefore i j = true) (g : s.shedsBefore j k = true) : s.shedsBefore i k = true := by
  rw [shedsBefore_iff_key] at h g ⊢; omega

theorem shedsBefore_asymm (h : s.shedsBefore j k = true) : ¬ s.shedsBefore k j = true := by
  rw [shedsBefore_iff_key] at h ⊢; omega

theorem shedsBefore_of_not (h : ¬ s.shedsBefore j k = true) (hne : j ≠ k) : s.shedsBefore k j = true := by
  have hval : j.val ≠ k.val := fun hv => hne (Fin.ext hv)
  rw [shedsBefore_iff_key] at h ⊢; omega

/-- A list of slots in shedding order. -/
def State.InShedOrder (s : State) (ks : List Slot) : Prop := ks.Pairwise (fun i j => s.shedsBefore i j = true)

theorem shedInsert_perm (k : Slot) (ks : List Slot) : (s.shedInsert k ks).Perm (k :: ks) := by
  induction ks with
  | nil => exact .refl _
  | cons j js ih =>
    unfold State.shedInsert
    split
    · exact .refl _
    · exact (ih.cons j).trans (.swap k j js)

theorem inShedOrder_shedInsert {ks : List Slot} (h : s.InShedOrder ks) (hk : k ∉ ks) : s.InShedOrder (s.shedInsert k ks) := by
  induction ks with
  | nil => exact List.pairwise_singleton _ _
  | cons j js ih =>
    obtain ⟨hj, hjs⟩ := List.pairwise_cons.1 h
    unfold State.shedInsert
    split
    · rename_i hkj
      refine List.pairwise_cons.2 ⟨fun i hi => ?_, h⟩
      rcases List.mem_cons.1 hi with rfl | hi
      · exact hkj
      · exact shedsBefore_trans hkj (hj i hi)
    · rename_i hkj
      refine List.pairwise_cons.2 ⟨fun i hi => ?_, ih hjs fun hm => hk (List.mem_cons_of_mem _ hm)⟩
      rcases List.mem_cons.1 ((shedInsert_perm k js).mem_iff.1 hi) with rfl | hi
      · exact shedsBefore_of_not hkj (fun he => hk (he ▸ List.mem_cons_self ..))
      · exact hj i hi

theorem foldr_shedInsert (ks : List Slot) (h : ks.Nodup) : (ks.foldr (fun k l => s.shedInsert k l) []).Perm ks ∧
    s.InShedOrder (ks.foldr (fun k l => s.shedInsert k l) []) := by
  induction ks with
  | nil => exact ⟨.refl _, List.Pairwise.nil⟩
  | cons k ks ih =>
    obtain ⟨hk, hks⟩ := List.nodup_cons.1 h
    obtain ⟨hperm, hord⟩ := ih hks
    exact ⟨(shedInsert_perm _ _).trans (hperm.cons k), inShedOrder_shedInsert hord fun hm => hk (hperm.mem_iff.1 hm)⟩

theorem shedOrder_perm : s.shedOrder.Perm allSlots := (foldr_shedInsert allSlots (by decide)).1

theorem shedOrder_inShedOrder : s.InShedOrder s.shedOrder := (foldr_shedInsert allSlots (by decide)).2

theorem mem_shedOrder (k : Slot) : k ∈ s.shedOrder := shedOrder_perm.mem_iff.2 (mem_allSlots k)

theorem nodup_of_inShedOrder {ks : List Slot} (h : s.InShedOrder ks) : ks.Nodup :=
  List.Pairwise.imp (S := fun i j => i ≠ j) (fun hij he => shedsBefore_asymm hij (by rw [he] at hij ⊢; exact hij)) h

/-! ### Candidates -/

theorem candidate_iff : s.candidate k = true ↔ ∃ l, s.leaseOf k = some l ∧ (s.sessOf k).state = .on ∧
    (s.policyOf k).cls = .deferrable ∧ l.trans = none ∧ (s.lineOf k).lost = false ∧ 2 ≤ l.tier := by
  unfold State.candidate
  split
  · rename_i hl; simp [hl]
  · rename_i l hl
    simp only [Bool.and_eq_true, decide_eq_true_eq, Option.isNone_iff_eq_none, Bool.not_eq_true', and_assoc, hl,
      Option.some.injEq, exists_eq_left']

theorem grantedTier_of_candidate (h : s.candidate k = true) : 2 ≤ s.grantedTier k := by
  obtain ⟨l, hl, _, _, _, _, htier⟩ := candidate_iff.1 h
  unfold State.grantedTier; rw [hl]; exact htier

/-! ### The plan -/

/-- What the choices of `plan` free together (R58). -/
def State.frees (s : State) (plan : List (Slot × Nat)) : Int := (plan.map (fun p => s.freeable p.1 p.2)).sum

/-- `init` with target `t` of slot `k` last is the plan of R58 for `rest`, over the candidates `ks`. -/
structure State.PlanCovers (s : State) (ks : List Slot) (rest : Int) (init : List (Slot × Nat)) (k : Slot) (t : Nat) : Prop where
  order : ((init ++ [(k, t)]).map Prod.fst).Sublist ks
  lowers : ∀ p ∈ init ++ [(k, t)], 1 ≤ p.2 ∧ p.2 < s.grantedTier p.1 ∧ 0 < s.freeable p.1 p.2
  toOne : ∀ p ∈ init, p.2 = 1
  onTheWay : ∀ j ∈ ks, s.shedsBefore j k = true → 0 < s.freeable j 1 → (j, 1) ∈ init
  short : s.frees init < rest
  enough : rest ≤ s.frees init + s.freeable k t
  highest : ∀ n, t < n → n < s.grantedTier k → s.frees init + s.freeable k n < rest

theorem frees_cons (p : Slot × Nat) (plan : List (Slot × Nat)) : s.frees (p :: plan) = s.freeable p.1 p.2 + s.frees plan :=
  List.sum_cons

/-- The last choice of a plan: the highest target that covers the rest. -/
theorem planCovers_last {ks : List Slot} {rest : Int} (hrest : 0 < rest) (hk : s.candidate k = true) (ho : s.InShedOrder (k :: ks))
    (hcover : rest ≤ s.freeable k 1) :
    s.PlanCovers (k :: ks) rest [] k (highestTier (fun t => decide (rest ≤ s.freeable k t)) (s.grantedTier k - 1)) := by
  have htier := grantedTier_of_candidate hk
  have hone : 1 ≤ highestTier (fun t => decide (rest ≤ s.freeable k t)) (s.grantedTier k - 1) :=
    le_highestTier (decide_eq_true hcover) le_rfl (by omega)
  have hle := highestTier_le (fun t => decide (rest ≤ s.freeable k t)) (s.grantedTier k - 1)
  have hok := of_decide_eq_true (highestTier_spec _ _ (Nat.one_le_iff_ne_zero.1 hone)).1
  refine ⟨by simp, fun p hp => ?_, fun p hp => (by cases hp), fun j hj hbefore _ => ?_, hrest, ?_, fun n hlt hn => ?_⟩
  · rw [List.nil_append, List.mem_singleton] at hp
    subst hp
    exact ⟨hone, by dsimp only; omega, by dsimp only; omega⟩
  · rcases List.mem_cons.1 hj with rfl | hj
    · exact absurd hbefore (shedsBefore_asymm hbefore)
    · exact absurd hbefore (shedsBefore_asymm ((List.pairwise_cons.1 ho).1 j hj))
  · simpa [State.frees] using hok
  · by_contra hno
    have := le_highestTier (ok := fun t => decide (rest ≤ s.freeable k t)) (m := n) (n := s.grantedTier k - 1)
      (by simpa [State.frees] using hno) (by omega) (by omega)
    omega

/-- A candidate that gives all of its tiers but the first, ahead of the plan of what remains. -/
theorem State.PlanCovers.cons {ks : List Slot} {rest : Int} {init : List (Slot × Nat)} {t : Nat} {i : Slot}
    (h : s.PlanCovers ks (rest - s.freeable i 1) init k t) (hi : s.candidate i = true) (hpos : 0 < s.freeable i 1) :
    s.PlanCovers (i :: ks) rest ((i, 1) :: init) k t where
  order := h.order.cons_cons i
  lowers p hp := by
    rcases List.mem_cons.1 hp with rfl | hp
    · exact ⟨le_rfl, grantedTier_of_candidate hi, hpos⟩
    · exact h.lowers p hp
  toOne p hp := by
    rcases List.mem_cons.1 hp with rfl | hp
    · rfl
    · exact h.toOne p hp
  onTheWay j hj hbefore hfree := by
    rcases List.mem_cons.1 hj with rfl | hj
    · exact List.mem_cons_self ..
    · exact List.mem_cons_of_mem _ (h.onTheWay j hj hbefore hfree)
  short := by have := h.short; rw [frees_cons]; dsimp only; omega
  enough := by have := h.enough; rw [frees_cons]; dsimp only; omega
  highest n hlt hn := by have := h.highest n hlt hn; rw [frees_cons]; dsimp only; omega

/-- A candidate with nothing to give is passed over. -/
theorem State.PlanCovers.skip {ks : List Slot} {rest : Int} {init : List (Slot × Nat)} {t : Nat} {i : Slot}
    (h : s.PlanCovers ks rest init k t) (hnone : s.freeable i 1 ≤ 0) : s.PlanCovers (i :: ks) rest init k t :=
  { h with
    order := h.order.cons i
    onTheWay := fun j hj hbefore hfree => by
      rcases List.mem_cons.1 hj with rfl | hj
      · omega
      · exact h.onTheWay j hj hbefore hfree }

/-- The walk of R58 finds the plan that covers the shortfall. -/
theorem reclaimPlan_covers {ks : List Slot} {rest : Int} {plan : List (Slot × Nat)} (hrest : 0 < rest)
    (hk : ∀ k ∈ ks, s.candidate k = true) (ho : s.InShedOrder ks) (h : s.reclaimPlan ks rest = some plan) :
    ∃ init k t, plan = init ++ [(k, t)] ∧ s.PlanCovers ks rest init k t := by
  induction ks generalizing rest plan with
  | nil => cases h
  | cons i ks ih =>
    obtain ⟨hi, hks⟩ := List.forall_mem_cons.1 hk
    have htail := (List.pairwise_cons.1 ho).2
    unfold State.reclaimPlan at h
    split at h
    · rename_i hnone
      obtain ⟨init, k, t, rfl, hplan⟩ := ih hrest hks htail h
      exact ⟨init, k, t, rfl, hplan.skip hnone⟩
    · rename_i hpos
      split at h
      · rename_i hcover
        cases h
        exact ⟨[], i, _, rfl, planCovers_last hrest hi ho hcover⟩
      · obtain ⟨rest', hrest', rfl⟩ := Option.map_eq_some_iff.1 h
        obtain ⟨init, k, t, rfl, hplan⟩ := ih (by omega) hks htail hrest'
        exact ⟨(i, 1) :: init, k, t, rfl, hplan.cons hi (by omega)⟩

/-- There is no plan exactly where tier 1 everywhere would not do (R58). -/
theorem reclaimPlan_eq_none_iff {ks : List Slot} {rest : Int} (hrest : 0 < rest) :
    s.reclaimPlan ks rest = none ↔ (ks.map (fun k => max 0 (s.freeable k 1))).sum < rest := by
  induction ks generalizing rest with
  | nil => exact ⟨fun _ => hrest, fun _ => rfl⟩
  | cons i ks ih =>
    have hsum : 0 ≤ (ks.map (fun k => max 0 (s.freeable k 1))).sum := List.sum_nonneg (by simp)
    unfold State.reclaimPlan
    rw [List.map_cons, List.sum_cons]
    split
    · rw [ih hrest]; omega
    · split
      · constructor
        · intro h; cases h
        · intro h; omega
      · rw [Option.map_eq_none_iff, ih (by omega)]; omega

/-! ### The recalls of a plan -/

/-- A frame that becomes due leaves the recall channel as it is. -/
theorem Line.kick_outRecall (x : Line) : x.kick.outRecall = x.outRecall := by
  unfold Line.kick; split <;> rfl

theorem Line.queue_recall (m : DownMsg) (x : Line) : (x.queue .recall m).outRecall = some m :=
  Line.kick_outRecall _

/-- A deadline of `n` times 10 ms in the field of a RECALL (R97). -/
theorem recallField_tens (n : Nat) : recallField (n * 10) = max 1 n := by unfold recallField; omega

/-- The slot of `p` has a lease without a transition, above the target of `p`. -/
def State.Recallable (s : State) (p : Slot × Nat) : Prop := ∃ l, s.leaseOf p.1 = some l ∧ l.trans = none ∧ p.2 < l.tier

theorem State.Recallable.not_raising {p : Slot × Nat} (h : s.Recallable p) : s.raising p.1 = false := by
  obtain ⟨l, hl, hx, _⟩ := h
  unfold State.raising; rw [hl]; dsimp only; rw [hx]

theorem recallable_of_candidate {p : Slot × Nat} (h : s.candidate p.1 = true) (hp : p.2 < s.grantedTier p.1) : s.Recallable p := by
  obtain ⟨l, hl, _, _, hx, _, _⟩ := candidate_iff.1 h
  unfold State.grantedTier at hp
  rw [hl] at hp
  exact ⟨l, hl, hx, hp⟩

/-- A recall on a lease without a transition puts a LOWER on it with the whole settle time (R46). -/
theorem recallOn_of_plain {l : Lease} {n : Nat} {g : RecallOrigin} (hl : s.leaseOf k = some l) (hx : l.trans = none) (hn : n < l.tier) :
    s.recallOn k n g = s.putLower k l n g (s.settings.settleTime * 10) := by
  unfold State.recallOn
  rw [hl]
  dsimp only
  rw [if_pos hn, hx]

/-- The recall of one choice: the LOWER, the RECALL and the notice. -/
theorem recallOn_plain_parts {l : Lease} {n : Nat} {g : RecallOrigin} (hl : s.leaseOf k = some l) (hx : l.trans = none)
    (hn : n < l.tier) : (s.recallOn k n g).leaseOf k =
      some { l with trans := some (.lower n (s.drawOf k n) g (s.settings.settleTime * 10)) } ∧
    ((s.recallOn k n g).lineOf k).outRecall = some (.recall n (max 1 s.settings.settleTime)) ∧
    (s.recallOn k n g).notices = s.notices.take .recallIssued (some k) g.reason false n := by
  have hr : s.raising k = false := State.Recallable.not_raising (p := (k, n)) ⟨l, hl, hx, hn⟩
  rw [recallOn_of_plain hl hx hn, putLower_eq hl hr]
  refine ⟨PerSlot.get_set_self _ _ _, ?_, rfl⟩
  show ((s.line.set k _).get k).outRecall = _
  rw [PerSlot.get_set_self, Line.queue_recall, recallField_tens]

/-- The recalls of a plan, one for each slot: every LOWER of it stands with its RECALL, and RECALL_ISSUED is posted for each (R59). -/
theorem recalls_stand {plan : List (Slot × Nat)} (hn : (plan.map Prod.fst).Nodup) (h : ∀ p ∈ plan, s.Recallable p) :
    (∀ p ∈ plan, ∀ l, s.leaseOf p.1 = some l →
      (s.recalls plan).leaseOf p.1 = some { l with
        trans := some (.lower p.2 (s.drawOf p.1 p.2) .preempt (s.settings.settleTime * 10)) } ∧
      ((s.recalls plan).lineOf p.1).outRecall = some (.recall p.2 (max 1 s.settings.settleTime))) ∧
    (s.recalls plan).notices = plan.foldl (fun q p => q.take .recallIssued (some p.1) .preempt false p.2) s.notices := by
  induction plan generalizing s with
  | nil => exact ⟨fun p hp => (by cases hp), rfl⟩
  | cons p ps ih =>
    obtain ⟨hp, hps⟩ := List.forall_mem_cons.1 h
    obtain ⟨hfresh, hnps⟩ := List.nodup_cons.1 hn
    have hraising := hp.not_raising
    obtain ⟨l, hl, hx, hlt⟩ := hp
    obtain ⟨hlease, hline, hnotices⟩ := recallOn_plain_parts (g := .preempt) hl hx hlt
    have hfirst := recallOn_recalled (n := p.2) hraising .preempt
    have hne : ∀ q ∈ ps, q.1 ∉ [p.1] := fun q hq hm => hfresh (List.mem_singleton.1 hm ▸ List.mem_map_of_mem hq)
    have hlease' : ∀ q ∈ ps, (s.recallOn p.1 p.2 .preempt).leaseOf q.1 = s.leaseOf q.1 := fun q hq => (hfirst.others _ (hne q hq)).1
    have hrecallable : ∀ q ∈ ps, (s.recallOn p.1 p.2 .preempt).Recallable q := fun q hq => by
      unfold State.Recallable; rw [hlease' q hq]; exact hps q hq
    obtain ⟨hstand, hposts⟩ := ih hnps hrecallable
    have hrest := recalls_recalled fun q hq => (hrecallable q hq).not_raising
    have hset : (s.recallOn p.1 p.2 .preempt).settings = s.settings := congrArg CommandUnit.settings hfirst.host.2.1
    have hdraw : ∀ j m, (s.recallOn p.1 p.2 .preempt).drawOf j m = s.drawOf j m := fun j =>
      drawOf_congr (by unfold State.sessOf; rw [hfirst.sess])
    refine ⟨fun q hq l' hl' => ?_, ?_⟩
    · rcases List.mem_cons.1 hq with rfl | hq
      · obtain rfl : l = l' := Option.some.inj (hl.symm.trans hl')
        obtain ⟨hlease'', hline''⟩ := hrest.others q.1 hfresh
        exact ⟨hlease''.trans hlease, (congrArg Line.outRecall hline'').trans hline⟩
      · obtain ⟨hstand', hrecall⟩ := hstand q hq l' ((hlease' q hq).trans hl')
        rw [hdraw, hset] at hstand'
        rw [hset] at hrecall
        exact ⟨hstand', hrecall⟩
    · exact hposts.trans (by rw [hnotices]; rfl)

/-- The begin of a reclaim reaches no slot outside its plan (R59). -/
theorem beginReclaim_sameSlot {e : Entry} {n : Nat} {plan : List (Slot × Nat)} (h : ∀ p ∈ plan, s.Recallable p)
    (hk : k ∉ plan.map Prod.fst) : s.SameSlot (s.beginReclaim e n plan) k := by
  have hrec := recalls_recalled fun p hp => (h p hp).not_raising
  obtain ⟨hlease, hline⟩ := hrec.others k hk
  refine ⟨congrArg (PerSlot.get · k) hrec.sess, hlease, hline, congrArg (PowerPath.slots · |>.get k) hrec.power,
    congrArg (Monitor.slots · |>.get k) hrec.mon, entryOf_eq_of_queue ?_⟩
  rw [alloc_beginReclaim fun p hp => (h p hp).not_raising]

/-- Settles O54: the order by insertion, the plan along the walk of R58, the begin by the recalls of the plan. -/
theorem aReclaimPlanCoversTheShortfall : Obligations.AReclaimPlanCoversTheShortfall := by
  unfold Obligations.AReclaimPlanCoversTheShortfall
  intro s short hshort
  dsimp only
  have hcand : ∀ k ∈ s.shedOrder.filter s.candidate, s.candidate k = true := fun k hk => (List.mem_filter.1 hk).2
  have horder : s.InShedOrder (s.shedOrder.filter s.candidate) := shedOrder_inShedOrder.sublist (List.filter_sublist ..)
  refine ⟨shedOrder_inShedOrder.imp shedsBefore_iff.1, mem_shedOrder, fun k => ?_, fun plan hplan => ?_, fun plan e n hplan => ?_,
    reclaimPlan_eq_none_iff hshort⟩
  · rw [List.mem_filter, candidate_iff]; exact and_iff_right (mem_shedOrder k)
  · obtain ⟨init, k, t, rfl, hc⟩ := reclaimPlan_covers hshort hcand horder hplan
    refine ⟨init, k, t, rfl, (horder.sublist hc.order).imp shedsBefore_iff.1, fun p hp => ?_, hc.toOne,
      fun j hj hbefore => hc.onTheWay j hj (shedsBefore_iff.2 hbefore), hc.short, ?_, hc.highest⟩
    · exact ⟨hc.order.subset (List.mem_map_of_mem hp), hc.lowers p hp⟩
    · rw [List.map_append, List.sum_append, List.map_singleton, List.sum_singleton]; exact hc.enough
  · obtain ⟨init, k, t, rfl, hc⟩ := reclaimPlan_covers hshort hcand horder hplan
    have hrec : ∀ p ∈ init ++ [(k, t)], s.Recallable p := fun p hp =>
      recallable_of_candidate (hcand _ (hc.order.subset (List.mem_map_of_mem hp))) (hc.lowers p hp).2.1
    have hall := recalls_recalled fun p hp => (hrec p hp).not_raising
    have halloc := alloc_beginReclaim (e := e) (n := n) fun p hp => (hrec p hp).not_raising
    obtain ⟨hstand, hnotices⟩ := recalls_stand (nodup_of_inShedOrder (horder.sublist hc.order)) hrec
    refine ⟨by rw [halloc], by rw [halloc], by rw [halloc], by rw [halloc], by rw [halloc], by rw [halloc], hall.sess, hall.power,
      hall.mon, hall.host, hall.raised, fun p hp l hl => ?_, fun j => beginReclaim_sameSlot hrec, ?_⟩
    · obtain ⟨hlease, hline⟩ := hstand p hp l hl
      exact ⟨hlease, hline, List.contains_iff_mem.2 (List.mem_map_of_mem hp)⟩
    · rw [← hnotices]; rfl

end Sys2Proof.Machine
end

section
/-! PROOFS. What follows the drop of a lease: the session settles, and a RESTORE is raised where one is due (R33, R36, R53, R63). -/

namespace Sys2Proof.Machine

variable {s t u d : State} {j k : Slot} {flag : Bool} {w n : Nat}

/-! ### The pass mark, the budget and the recall channel -/

/-- A happening in two parts makes a pass due when either part does. -/
theorem State.PassDueBy.trans {p q : Prop} (h : s.PassDueBy t p) (g : t.PassDueBy u q) : s.PassDueBy u (p ∨ q) := by
  refine ⟨fun hpq => ?_, fun hpq => ?_⟩
  · by_cases hq : q
    · exact g.1 hq
    · exact (g.2 hq).trans (h.1 (hpq.resolve_right hq))
  · rw [not_or] at hpq
    exact (g.2 hpq.2).trans (h.2 hpq.1)

theorem State.PassDueBy.congr {p q : Prop} (h : s.PassDueBy t p) (hpq : p ↔ q) : s.PassDueBy t q := by
  unfold State.PassDueBy at h ⊢; rwa [hpq] at h

theorem State.OnlyAt.cmd (h : State.OnlyAt k s t) : t.cmd = s.cmd := h.host.2.1

theorem State.OnlyAt.available (h : State.OnlyAt k s t) : t.available = s.available := by
  unfold State.available; rw [h.settings]

theorem State.OnlyAt.floorSum (h : State.OnlyAt k s t) : t.floorSum = s.floorSum := by
  unfold State.floorSum; rw [funext h.floorOf]

theorem State.SessionEnded.entryOf {c : Reason} {st : SessState} (h : s.SessionEnded t k c st) : t.entryOf k = none := h.2.1

theorem State.SessionEnded.outRecall {c : Reason} {st : SessState} (h : s.SessionEnded t k c st) : (t.lineOf k).outRecall = none := by
  obtain ⟨_, _, _, ⟨hrecall, _⟩, _⟩ := h
  exact hrecall

theorem State.Settles.leaseOf {restores : Bool} {q : NoticeQueue} (h : s.Settles t k flag restores q) : t.leaseOf k = none := by
  obtain ⟨⟨⟨hlease, _⟩, _⟩, _⟩ := h
  exact hlease

theorem commitment_of_no_lease (h : s.leaseOf k = none) : s.commitment k = s.floorOf k := by
  unfold State.commitment; rw [h]; exact Nat.max_zero _

theorem Line.remove_outRecall (x : Line) : (x.remove .recall).outRecall = none := rfl

theorem Line.removeGrant_outRecall (x : Line) : x.removeGrant.outRecall = x.outRecall := by
  unfold Line.removeGrant; split <;> rfl

theorem Line.queueClaim_outRecall (m : DownMsg) (x : Line) : (x.queueClaim m).outRecall = x.outRecall := by
  have hqueue : ∀ m', (x.queue .claim m').outRecall = x.outRecall := fun m' => by
    unfold Line.queue Line.kick; split <;> rfl
  unfold Line.queueClaim; split
  · exact hqueue _
  · rfl
  · exact hqueue _

/-- A drop that ends a LOWER leaves no RECALL (R54). -/
theorem Line.leaseDropped_outRecall {l : Lease} (h : l.lowering = true) (x : Line) : (x.leaseDropped l).outRecall = none := by
  obtain ⟨_, _, _, _, _ | _ | _⟩ := l
  · cases h
  · cases h
  · exact (Line.removeGrant_outRecall _).trans (Line.remove_outRecall x)

/-! ### An entry moves while its slot has no lease -/

/-- The entry of slot `k`, which has no lease, is denied, or a RESTORE joins or is merged into it: the claim channel, the queue and
the notices change, and the reclaim only where the beneficiary's entry leaves (R33, R35, R63). -/
structure State.EntryMoved (s t : State) (k : Slot) : Prop where
  only : State.OnlyAt k s t
  sess : t.sess = s.sess
  power : t.power = s.power
  mon : t.mon = s.mon
  leases : t.alloc.leases = s.alloc.leases
  committed : t.alloc.committed = s.alloc.committed
  outRecall : (t.lineOf k).outRecall = (s.lineOf k).outRecall
  reclaim : t.entryOf k = s.entryOf k ∨ s.isBeneficiary k = false → s.ReclaimSame t
  abandoned : (s.entryOf k).isSome = true → s.isBeneficiary k = true → t.entryOf k = none →
    t.alloc.reclaim = none ∧ t.alloc.earmark = 0

theorem State.EntryMoved.refl (s : State) (k : Slot) : s.EntryMoved s k where
  only := .refl s k
  sess := rfl
  power := rfl
  mon := rfl
  leases := rfl
  committed := rfl
  outRecall := rfl
  reclaim _ := ⟨rfl, rfl⟩
  abandoned h _ hn := by rw [hn] at h; cases h

theorem entryMoved_refuseClaim {o : EntryOrigin} {r : Reason} (ho : o ≠ .host) : s.EntryMoved (s.refuseClaim k o r w) k := by
  obtain ⟨honly, hentry, hsess, hleases, hcommitted, hpower, hmon, hline⟩ := refuseClaim_parts (s := s) (k := k) (r := r) (w := w) ho
  obtain ⟨_, hben, hother⟩ := refuseClaim_reclaim (s := s) (k := k) (r := r) (w := w) ho
  refine ⟨honly, hsess, hpower, hmon, hleases, hcommitted, ?_, fun h => ?_, fun he hb _ => ?_⟩
  · rw [show State.lineOf _ k = _ from congrArg (fun x => PerSlot.get x k) hline, PerSlot.get_set_self]
    exact Line.queueClaim_outRecall _ _
  · rw [hentry, eq_comm] at h
    obtain ⟨hreclaim, hearmark, _⟩ := hother h
    exact ⟨hreclaim, hearmark⟩
  · obtain ⟨hreclaim, hearmark, _⟩ := hben he hb
    exact ⟨hreclaim, hearmark⟩

theorem denyEntry_of_none {r : Reason} (h : s.entryOf k = none) : s.denyEntry k r = s := by unfold State.denyEntry; rw [h]

/-- The denial of an entry is the refusal of a claim for what it wanted (R29, R35). -/
theorem denyEntry_of_entry {e : Entry} {r : Reason} (h : s.entryOf k = some e) :
    s.denyEntry k r = s.refuseClaim k .claim r e.wanted := by
  rw [refuseClaim_of_entry (by decide) (by rw [h]; rfl)]
  unfold State.denyEntry
  rw [h]

theorem entryMoved_denyEntry {r : Reason} : s.EntryMoved (s.denyEntry k r) k := by
  cases he : s.entryOf k with
  | none => rw [denyEntry_of_none he]; exact .refl s k
  | some e => rw [denyEntry_of_entry he]; exact entryMoved_refuseClaim (by decide)

theorem passDueBy_denyEntry {r : Reason} : s.PassDueBy (s.denyEntry k r) ((s.entryOf k).isSome = true) := by
  cases he : s.entryOf k with
  | none => rw [denyEntry_of_none he]; exact ⟨fun h => (by cases h), fun _ => rfl⟩
  | some e =>
    rw [denyEntry_of_entry he, ← he]
    exact (refuseClaim_reclaim (by decide)).1

/-! ### RESTORE -/

/-- The wanted tier of a RESTORE for a lease lost at tier `w` (R33). -/
def State.restoredTier (s : State) (k : Slot) (w : Nat) : Nat :=
  match s.entryOf k with
  | some e => max e.wanted w
  | none => w

/-- The entry of a RESTORE is put in the queue: a new one, or the slot's own with other tiers (R33). -/
def State.putRestore (k : Slot) (w : Nat) (s : State) : State :=
  match s.entryOf k with
  | some _ => s.retier k .restore w 1
  | none => s.joinEntry (s.newEntry k .restore w 1)

theorem takeClaim_restore_refused {r : Reason} (h : s.admission k (s.restoredTier k w) 1 = some r) :
    s.takeClaim k .restore w 1 = s.refuseClaim k .restore r (s.restoredTier k w) := by
  unfold State.restoredTier at h ⊢
  unfold State.takeClaim
  cases he : s.entryOf k with
  | none => rw [he] at h; dsimp only at h ⊢; rw [h]
  | some e => rw [he] at h; dsimp only at h ⊢; rw [if_pos rfl, h]

theorem takeClaim_restore_passed (h : s.admission k (s.restoredTier k w) 1 = none) : ∃ n, s.takeClaim k .restore w 1 =
    ((s.putRestore k (s.restoredTier k w)).wantPass true).post .queued (some k) .restore n := by
  unfold State.restoredTier at h ⊢
  unfold State.takeClaim State.putRestore
  cases he : s.entryOf k with
  | none => rw [he] at h; dsimp only at h ⊢; rw [h]; exact ⟨_, rfl⟩
  | some e => rw [he] at h; dsimp only at h ⊢; rw [if_pos rfl, h]; exact ⟨_, rfl⟩

/-- The entry that a RESTORE puts in the queue. -/
theorem entryOf_putRestore : ∃ e, (s.putRestore k w).entryOf k = some e ∧ e.origin = .restore ∧ e.wanted = w ∧ e.least = 1 ∧
    (match s.entryOf k with
      | some old => e.passCount = old.passCount ∧ e.tag = old.tag
      | none => e.passCount = 0 ∧ e.tag = (s.sessOf k).tag) := by
  unfold State.putRestore
  cases he : s.entryOf k with
  | none =>
    exact ⟨_, (entryOf_joinEntry (e := s.newEntry k .restore w 1) he k).trans (if_pos rfl), rfl, rfl, rfl, rfl, rfl⟩
  | some old =>
    have hentry := entryOf_retier (s := s) (k := k) (g := .restore) (w := w) (l := 1) k
    rw [he, Option.map_some, if_pos rfl] at hentry
    exact ⟨_, hentry, rfl, rfl, rfl, rfl, rfl⟩

theorem onlyAt_putRestore : State.OnlyAt k s (s.putRestore k w) := by
  unfold State.putRestore
  split
  · exact onlyAt_retier
  · rename_i he
    exact onlyAt_joinEntry (e := s.newEntry k .restore w 1) he

theorem entryMoved_restoreClaim : s.EntryMoved (s.takeClaim k .restore w 1) k := by
  cases h : s.admission k (s.restoredTier k w) 1 with
  | some r => rw [takeClaim_restore_refused h]; exact entryMoved_refuseClaim (by decide)
  | none =>
    obtain ⟨n, heq⟩ := takeClaim_restore_passed h
    obtain ⟨e, he, _⟩ := entryOf_putRestore (s := s) (k := k) (w := s.restoredTier k w)
    have hput : ∃ q, s.putRestore k (s.restoredTier k w) = s.withQueue q := by
      unfold State.putRestore; split <;> exact ⟨_, rfl⟩
    obtain ⟨q, hq⟩ := hput
    have honly : State.OnlyAt k s (((s.putRestore k (s.restoredTier k w)).wantPass true).post .queued (some k) .restore n) :=
      (onlyAt_putRestore.trans onlyAt_wantPass).trans onlyAt_post
    rw [heq]
    rw [hq] at he honly ⊢
    refine ⟨honly, rfl, rfl, rfl, rfl, rfl, rfl, fun _ => ⟨rfl, rfl⟩, fun _ _ hn => ?_⟩
    rw [State.entryOf_post, State.entryOf_wantPass, he] at hn
    cases hn

/-- A RESTORE makes a pass due where it stands, and where the entry it was to be merged into leaves (R37). -/
theorem passDueBy_restoreClaim : s.PassDueBy (s.takeClaim k .restore w 1)
    (((s.takeClaim k .restore w 1).entryOf k).isSome = true ∨ (s.entryOf k).isSome = true) := by
  cases h : s.admission k (s.restoredTier k w) 1 with
  | some r =>
    rw [takeClaim_restore_refused h]
    obtain ⟨_, hentry, _⟩ := refuseClaim_parts (s := s) (k := k) (o := .restore) (r := r) (w := s.restoredTier k w) (by decide)
    rw [hentry]
    exact (refuseClaim_reclaim (by decide)).1.congr (by simp)
  | none =>
    obtain ⟨n, heq⟩ := takeClaim_restore_passed h
    obtain ⟨e, he, _⟩ := entryOf_putRestore (s := s) (k := k) (w := s.restoredTier k w)
    rw [heq, State.entryOf_post, State.entryOf_wantPass, he]
    exact ⟨fun _ => Bool.or_true _, fun hno => absurd (.inl rfl) hno⟩

/-- A RESTORE that meets what R33 asks stands in the queue. -/
theorem restored_restoreClaim (hl : s.leaseOf k = none) (ha : (s.sessOf k).admitFlag = true) :
    s.Restored (s.takeClaim k .restore w 1) k w := by
  show 1 ≤ s.restoredTier k w → s.restoredTier k w ≤ s.tiersOf k → _
  intro hone htiers hcap hfits
  have hpass : s.admission k (s.restoredTier k w) 1 = none := by
    unfold State.admission State.overCap State.neverFits State.raising State.claimTier
    rw [hl, ha]
    simp only [decide_eq_true_eq]
    rw [if_neg (by omega), if_neg (by decide), if_neg (by decide), if_neg (by omega), if_neg (by omega), if_neg (by omega)]
  obtain ⟨n, heq⟩ := takeClaim_restore_passed hpass
  rw [heq]
  exact entryOf_putRestore

/-! ### The lease dropped -/

/-- `d` is `s` with slot `k`'s lease dropped and the session's `admitFlag` at `flag`, before the session settles. -/
structure State.Dropped (s d : State) (k : Slot) (flag : Bool) : Prop where
  only : State.OnlyAt k s d
  gone : s.LeaseGone d k
  entry : d.entryOf k = s.entryOf k
  beneficiary : d.isBeneficiary k = s.isBeneficiary k
  admitFlag : (d.sessOf k).admitFlag = flag
  tag : (d.sessOf k).tag = (s.sessOf k).tag
  desc : (d.sessOf k).desc = (s.sessOf k).desc
  protoErrors : (d.sessOf k).protoErrors = (s.sessOf k).protoErrors
  link : (d.lineOf k).lost = (s.lineOf k).lost ∧ (d.lineOf k).counters = (s.lineOf k).counters ∧ (d.lineOf k).seq = (s.lineOf k).seq
  struck : (d.monOf k).struck = (s.monOf k).struck
  due : s.PassDueBy d (s.DropCalls k)
  reclaim : s.alloc.reclaim = none → d.alloc.reclaim = none

/-- The drop of a lease makes a pass due where it ends a LOWER or committed falls (R12, R18, log entry 44). -/
theorem passDueBy_dropLease {l : Lease} (hl : s.leaseOf k = some l) : s.PassDueBy (s.dropLease k) (s.DropCalls k) := by
  have hfall : (s.setLease k none).alloc.passDue = (s.alloc.passDue || decide (s.floorOf k < s.commitment k)) := by
    show (s.alloc.passDue || decide ((s.setLease k none).commitment k < s.commitment k)) = _
    rw [commitment_setLease, if_pos rfl]
    simp only [Lease.term, Nat.max_zero]
  unfold State.DropCalls State.PassDueBy State.dropLease
  rw [hl]
  by_cases hlow : l.lowering = true
  · have hlowers := lowering_iff.2 ⟨l, hl, hlow⟩
    dsimp only
    rw [if_pos hlow]
    exact ⟨fun _ => Bool.or_true _, fun hno => absurd (.inl hlowers) hno⟩
  · have hnone : ¬ s.Lowers k := fun h => by
      obtain ⟨l', hl', hlow'⟩ := lowering_iff.1 h
      rw [hl] at hl'; cases hl'
      exact hlow hlow'
    dsimp only
    rw [if_neg hlow, or_iff_right hnone]
    refine ⟨fun h => ?_, fun h => ?_⟩
    · exact hfall.trans (by rw [decide_eq_true h, Bool.or_true])
    · exact hfall.trans (by rw [decide_eq_false h, Bool.or_false])

theorem lineOf_dropLease {l : Lease} (hl : s.leaseOf k = some l) : (s.dropLease k).lineOf k = (s.lineOf k).leaseDropped l := by
  have key : ∀ v : State, v.line = s.line →
      (((v.modLine k (Line.leaseDropped l)).releasePath k).modMon k (fun m => { m with run := 0 })).lineOf k =
        (s.lineOf k).leaseDropped l := fun v hv => by
    show (v.line.set k _).get k = _
    rw [PerSlot.get_set_self, hv]; rfl
  unfold State.dropLease
  rw [hl]
  dsimp only
  split
  · exact key _ (creditVictim_frame (s := s.setLease k none)).2.1
  · exact key _ rfl

theorem dropped_dropLease {l : Lease} (hl : s.leaseOf k = some l) : s.Dropped (s.dropLease k) k (s.sessOf k).admitFlag := by
  have hsome : (s.leaseOf k).isSome = true := by rw [hl]; rfl
  obtain ⟨hsess, hlost, hcounters, hseq, hstruck⟩ := dropLease_keeps (s := s) (k := k)
  have hsessOf : (s.dropLease k).sessOf k = s.sessOf k := congrArg (PerSlot.get · k) hsess
  exact {
    only := onlyAt_dropLease
    gone := dropLease_leaseGone hsome
    entry := dropLease_credits.2
    beneficiary := dropLease_isBeneficiary
    admitFlag := by rw [hsessOf]
    tag := by rw [hsessOf]
    desc := by rw [hsessOf]
    protoErrors := by rw [hsessOf]
    link := ⟨hlost, hcounters, hseq⟩
    struck := hstruck
    due := passDueBy_dropLease hl
    reclaim := dropLease_reclaim }

namespace State.Dropped

theorem post (h : s.Dropped d k flag) {c : NoticeKind} {o : Option Slot} {r : Reason} {v : Nat} : s.Dropped (d.post c o r v) k flag :=
  { h with only := h.only.trans onlyAt_post }

/-- The session may change first where tag, list and counts stand. -/
theorem of_modSess {f : Session → Session} (h : (s.modSess k f).Dropped d k flag)
    (hf : ∀ x, (f x).tag = x.tag ∧ (f x).desc = x.desc ∧ (f x).protoErrors = x.protoErrors) : s.Dropped d k flag := by
  obtain ⟨htag, hdesc, herrors⟩ := hf (s.sessOf k)
  have hsess : (s.modSess k f).sessOf k = f (s.sessOf k) := by rw [State.sessOf_modSess, if_pos rfl]
  exact { h with
    only := onlyAt_modSess.trans h.only
    gone := h.gone
    tag := by rw [h.tag, hsess, htag]
    desc := by rw [h.desc, hsess, hdesc]
    protoErrors := by rw [h.protoErrors, hsess, herrors]
    due := h.due }

theorem leaseOf (h : s.Dropped d k flag) : d.leaseOf k = none := h.gone.1.1

theorem committed (h : s.Dropped d k flag) : d.alloc.committed = s.alloc.committed + s.floorOf k - s.commitment k := by
  obtain ⟨⟨_, hcommitted, _⟩, _⟩ := h.gone
  exact hcommitted

theorem enabled (h : s.Dropped d k flag) : (d.policyOf k).enabled = (s.policyOf k).enabled := by rw [h.only.policyOf]

/-- What the drop did to the reclaim stands, or the reclaim is abandoned with the beneficiary's entry (R60, R63). -/
theorem dropCredits (h : s.Dropped d k flag) (hsame : t.entryOf k = d.entryOf k ∨ d.isBeneficiary k = false → d.ReclaimSame t)
    (hgone : (d.entryOf k).isSome = true → d.isBeneficiary k = true → t.entryOf k = none →
      t.alloc.reclaim = none ∧ t.alloc.earmark = 0) : s.DropCredits t k := by
  rw [h.entry, h.beneficiary] at hsame hgone
  refine ⟨fun hx => ?_, hgone⟩
  obtain ⟨_, hdrop, _⟩ := h.gone
  obtain ⟨hcredit, hstand⟩ := hdrop (.inl h.entry)
  obtain ⟨hreclaim, hearmark⟩ := hsame hx
  refine ⟨fun hl => ?_, fun hl => ?_⟩
  · obtain ⟨hmarked, hfree⟩ := hcredit hl
    refine ⟨fun r hr hk => ?_, fun hn => ?_⟩
    · rw [hreclaim, hearmark]; exact hmarked r hr hk
    · obtain ⟨h1, h2⟩ := hfree hn
      exact ⟨hreclaim.trans h1, hearmark.trans h2⟩
  · obtain ⟨h1, h2⟩ := hstand hl
    exact ⟨hreclaim.trans h1, hearmark.trans h2⟩

/-! ### The session ends -/

theorem sessionEnded {c : Reason} {st : SessState} (h : s.Dropped d k flag) : s.SessionEnded (d.teardown k c st) k c st := by
  have hfloor := commitment_of_no_lease h.leaseOf
  have hended : d.SessionEnded (d.teardown k c st) k c st :=
    teardown_sessionEnded h.leaseOf rfl ⟨rfl, rfl, rfl⟩ rfl (by rw [hfloor]; exact (Nat.add_sub_cancel ..).symm)
  obtain ⟨hlost, hcounters, hseq⟩ := h.link
  unfold State.SessionEnded at hended ⊢
  rw [h.tag, h.desc, h.protoErrors, hlost, hcounters, hseq, h.struck, hfloor, Nat.add_sub_cancel, h.committed] at hended
  exact hended

theorem alloc_teardown {c : Reason} {st : SessState} : (d.teardown k c st).alloc = (d.removeEntry k).alloc := by
  unfold State.teardown
  dsimp only
  split
  · rw [State.modLine_alloc, alloc_enter, State.modMon_alloc, State.modSess_alloc, State.modLine_alloc]
  · rw [alloc_enter, State.modMon_alloc, State.modSess_alloc, State.modLine_alloc]

theorem leaseGone_teardown {c : Reason} {st : SessState} (h : s.Dropped d k flag) : s.LeaseGone (d.teardown k c st) k := by
  obtain ⟨hsame, hgone⟩ := removeEntry_reclaim (s := d) (k := k)
  have hentry : (d.teardown k c st).entryOf k = none := by
    unfold State.entryOf; rw [alloc_teardown]; exact entryOf_removeEntry_self
  refine ⟨h.gone.1.teardown, h.dropCredits (fun hx => ?_) (fun he hb _ => ?_)⟩
  · rw [hentry, eq_comm] at hx
    unfold State.ReclaimSame; rw [alloc_teardown]
    exact hsame hx.symm
  · rw [alloc_teardown]; exact hgone he hb

theorem passDueBy_teardown {c : Reason} {st : SessState} : d.PassDueBy (d.teardown k c st) ((d.entryOf k).isSome = true) := by
  unfold State.PassDueBy
  rw [alloc_teardown]
  unfold State.removeEntry
  cases he : d.entryOf k with
  | none => exact ⟨fun h => (by cases h), fun _ => rfl⟩
  | some e =>
    refine ⟨fun _ => ?_, fun h => absurd rfl h⟩
    dsimp only
    split
    · rename_i hb
      have hb' : ((d.unqueue k).wantPass true).isBeneficiary k = true := hb
      rw [abandonReclaim_of_beneficiary hb']
      show (d.alloc.passDue || true || _) = true
      rw [Bool.or_true, Bool.true_or]
    · exact Bool.or_true _

/-- On a disabled slot the session ends (R53). -/
theorem settles_barred {restores : Bool} (h : s.Dropped d k flag) (hen : (s.policyOf k).enabled = false) :
    s.Settles (d.endSession k .barred .barred) k flag restores d.notices := by
  have hended := h.sessionEnded (c := .barred) (st := .barred)
  have hgone := h.leaseGone_teardown (c := .barred) (st := .barred)
  have hdue := h.due.trans (passDueBy_teardown (k := k) (c := .barred) (st := .barred))
  have hnotices := fun hr => (teardown_notices (k := k) (c := .barred) (st := .barred) (h.reclaim hr)).1
  unfold State.endSession
  generalize d.teardown k .barred .barred = u at *
  have hnone := hended.entryOf
  refine ⟨hgone, ?_, fun hx => (by rw [hen] at hx; cases hx), fun _ => hended, fun hr _ _ => ?_⟩
  · refine State.PassDueBy.congr hdue ?_
    rw [State.entryOf_post, h.entry, hnone, hen]
    simp
  · rw [hen, if_neg Bool.false_ne_true, ← h.tag, State.post_notices, hnotices hr]

/-! ### The session stands -/

/-- On an enabled slot the session stands in STANDBY, whatever its entry does then (R36, R53). -/
theorem settles_standby {restores : Bool} (h : s.Dropped d k flag) (hen : (s.policyOf k).enabled = true)
    (hm : (d.enter k .standby).EntryMoved t k)
    (hdue : d.PassDueBy t ((restores = true ∧ (t.entryOf k).isSome = true) ∨
      ((s.entryOf k).isSome = true ∧ (restores = true ∨ flag = false))))
    (hnone : flag = false → t.entryOf k = none) (hstays : flag = true → restores = false → t.entryOf k = s.entryOf k)
    (hnotices : s.entryOf k = none ∨ flag = true → (restores = true → flag = false) → t.notices = d.notices) :
    s.Settles t k flag restores d.notices := by
  have hsess : t.sessOf k = { d.sessOf k with state := .standby } := (congrArg (PerSlot.get · k) hm.sess).trans sessOf_enter
  have hramp : t.rampOf k = { d.rampOf k with aux := true } :=
    (congrArg (PerSlot.get · k) (congrArg PowerPath.slots hm.power)).trans rampOf_enter
  have hmon : t.monOf k = d.monOf k := congrArg (PerSlot.get · k) (congrArg Monitor.slots hm.mon)
  have hqueue : t.power.queue = d.power.queue := (congrArg PowerPath.queue hm.power).trans rfl
  have hholder : t.power.holder = d.power.holder := (congrArg PowerPath.holder hm.power).trans rfl
  have hoff : s.LeaseOff t k := h.gone.1.congr (congrArg (PerSlot.get · k) hm.leases) hm.committed (.inr ⟨true, hramp⟩) hqueue
    hholder (by rw [hmon]; exact ⟨rfl, rfl⟩)
  refine ⟨⟨hoff, h.dropCredits hm.reclaim hm.abandoned⟩, ?_, fun _ => ⟨?_, ?_, ?_, ?_, ?_, hnone, hstays⟩, fun hx => ?_, fun _ he hr => ?_⟩
  · refine (h.due.trans hdue).congr ?_
    rw [hen]; simp
  · rw [hsess]
  · rw [hsess]; exact h.admitFlag
  · rw [hsess]; exact h.tag
  · rw [hsess]; exact h.desc
  · rw [hramp]
  · rw [hen] at hx; cases hx
  · rw [if_pos hen]
    exact hnotices (he.imp id And.right) (hr hen)

theorem settle_of_disabled (h : s.Dropped d k flag) (hen : (s.policyOf k).enabled = false) : d.settle k = d.endSession k .barred .barred :=
  if_neg (by rw [h.enabled, hen]; decide)

theorem settle_of_enabled (h : s.Dropped d k flag) (hen : (s.policyOf k).enabled = true) :
    d.settle k = if flag = true then d.enter k .standby else (d.enter k .standby).denyEntry k .notAdmitted := by
  unfold State.settle
  rw [if_pos (by rw [h.enabled, hen])]
  dsimp only
  rw [sessOf_enter, h.admitFlag]

/-- The session settles without its entry where `admitFlag` is clear (R36). -/
theorem settles_unadmitted {restores : Bool} (h : s.Dropped d k false) (hen : (s.policyOf k).enabled = true) :
    s.Settles ((d.enter k .standby).denyEntry k .notAdmitted) k false restores d.notices := by
  have hentry : (d.enter k .standby).entryOf k = s.entryOf k := h.entry
  have hdue : d.PassDueBy ((d.enter k .standby).denyEntry k .notAdmitted) ((s.entryOf k).isSome = true) := by
    have := passDueBy_denyEntry (s := d.enter k .standby) (k := k) (r := .notAdmitted)
    rwa [hentry] at this
  refine h.settles_standby hen entryMoved_denyEntry (hdue.congr ?_) (fun _ => entryOf_denyEntry_self) (fun hx => (by cases hx))
    fun hx _ => ?_
  · rw [entryOf_denyEntry_self]; simp
  · rw [denyEntry_of_none (hentry.trans (hx.resolve_right (by decide)))]; rfl

/-- The session of a lease that was dropped settles (R36, R53). -/
theorem settles (h : s.Dropped d k flag) : s.Settles (d.settle k) k flag false d.notices := by
  cases hen : (s.policyOf k).enabled with
  | false => rw [h.settle_of_disabled hen]; exact h.settles_barred hen
  | true =>
    rw [h.settle_of_enabled hen]
    cases flag with
    | false => exact h.settles_unadmitted hen
    | true =>
      refine h.settles_standby hen (.refl _ k) ⟨fun hx => ?_, fun _ => rfl⟩ (fun hx => (by cases hx)) (fun _ _ => h.entry) fun _ _ => rfl
      simp at hx

theorem settleRestoring_eq (h : s.Dropped d k flag) : d.settleRestoring k w =
    if (s.policyOf k).enabled = true then
      if flag = true then (d.enter k .standby).takeClaim k .restore w 1 else (d.enter k .standby).denyEntry k .notAdmitted
    else d.endSession k .barred .barred := by
  unfold State.settleRestoring State.restore
  dsimp only
  rw [h.enabled]
  cases hen : (s.policyOf k).enabled with
  | false => exact h.settle_of_disabled hen
  | true =>
    rw [if_pos rfl, if_pos rfl, h.settle_of_enabled hen]
    cases flag with
    | true => rw [if_pos rfl, if_pos rfl, sessOf_enter, h.admitFlag, if_pos rfl]
    | false =>
      rw [if_neg Bool.false_ne_true, if_neg Bool.false_ne_true, sessOf_denyEntry, sessOf_enter, h.admitFlag, if_neg Bool.false_ne_true]

/-- The session settles, and a RESTORE is raised unless `admitFlag` is clear (R33, R53). -/
theorem settlesRestoring (h : s.Dropped d k flag) : s.Settles (d.settleRestoring k w) k flag true d.notices := by
  rw [h.settleRestoring_eq]
  cases hen : (s.policyOf k).enabled with
  | false => exact h.settles_barred hen
  | true =>
    cases flag with
    | false => exact h.settles_unadmitted hen
    | true =>
      have hdue := passDueBy_restoreClaim (s := d.enter k .standby) (k := k) (w := w)
      rw [show (d.enter k .standby).entryOf k = s.entryOf k from h.entry] at hdue
      exact h.settles_standby hen entryMoved_restoreClaim (hdue.congr (by simp)) (fun hx => (by cases hx)) (fun _ hx => (by cases hx))
        fun _ hx => (by cases hx rfl)

/-- What follows a LOWER that ended with its lease dropped (R53). -/
theorem settlesRecalled (h : s.Dropped d k flag) {o : RecallOrigin} :
    s.Settles (d.settleRecalled k o w) k flag (decide (o = .shed)) d.notices := by
  unfold State.settleRecalled
  split
  · rename_i ho; rw [decide_eq_true ho]; exact h.settlesRestoring
  · rename_i ho; rw [decide_eq_false ho]; exact h.settles

/-- The RESTORE of an admitted session stands where R33 asks no more (R33). -/
theorem restored (h : s.Dropped d k true) (hen : (s.policyOf k).enabled = true) : s.Restored (d.settleRestoring k w) k w := by
  rw [h.settleRestoring_eq, if_pos hen, if_pos rfl]
  have hsess : (d.enter k .standby).sessOf k = { d.sessOf k with state := .standby } := sessOf_enter
  have hrestored := restored_restoreClaim (s := d.enter k .standby) (k := k) (w := w) h.leaseOf
    (by rw [hsess]; exact h.admitFlag)
  have honly : State.OnlyAt k s (d.enter k .standby) := h.only.trans onlyAt_enter
  have hdesc : ((d.enter k .standby).sessOf k).desc = (s.sessOf k).desc := by rw [hsess]; exact h.desc
  have htag : ((d.enter k .standby).sessOf k).tag = (s.sessOf k).tag := by rw [hsess]; exact h.tag
  unfold State.Restored at hrestored ⊢
  rw [show (d.enter k .standby).entryOf k = s.entryOf k from h.entry, tiersOf_congr hdesc, drawOf_congr hdesc, honly.policyOf,
    honly.floorOf, honly.floorSum, honly.available, htag] at hrestored
  exact hrestored

theorem onlyAt_settleRecalled (h : s.Dropped d k flag) {o : RecallOrigin} : State.OnlyAt k s (d.settleRecalled k o w) := by
  unfold State.settleRecalled
  split
  · rw [h.settleRestoring_eq]
    split
    · split
      · exact (h.only.trans onlyAt_enter).trans entryMoved_restoreClaim.only
      · exact (h.only.trans onlyAt_enter).trans onlyAt_denyEntry
    · exact h.only.trans onlyAt_endSession
  · exact h.only.trans onlyAt_settle

/-- No RECALL comes of it (R54). -/
theorem outRecall_settleRecalled (h : s.Dropped d k flag) {o : RecallOrigin} (hr : (d.lineOf k).outRecall = none) :
    ((d.settleRecalled k o w).lineOf k).outRecall = none := by
  have hstand : ((d.enter k .standby).lineOf k).outRecall = none := by rw [lineOf_enter]; exact hr
  have hbarred : ((d.endSession k .barred .barred).lineOf k).outRecall = none :=
    (h.sessionEnded (c := .barred) (st := .barred)).outRecall
  have hdenied : (((d.enter k .standby).denyEntry k .notAdmitted).lineOf k).outRecall = none :=
    entryMoved_denyEntry.outRecall.trans hstand
  unfold State.settleRecalled
  cases hen : (s.policyOf k).enabled with
  | false =>
    rw [h.settleRestoring_eq, h.settle_of_disabled hen, hen, if_neg Bool.false_ne_true, ite_self]
    exact hbarred
  | true =>
    rw [h.settleRestoring_eq, h.settle_of_enabled hen, hen, if_pos rfl]
    split <;> split
    · exact entryMoved_restoreClaim.outRecall.trans hstand
    · exact hdenied
    · exact hstand
    · exact hdenied

end State.Dropped

end Sys2Proof.Machine
end

section
/-! PROOFS. The ends of a LOWER: the lease kept at a lower tier, or dropped and its session settled, by an answer or at the deadline
(R50 to R54, R60). -/

namespace Sys2Proof.Machine

variable {s : State} {k : Slot} {l : Lease} {o : RecallOrigin}

/-! ### The lease kept -/

/-- What the end of a LOWER leaves where the lease stays at tier `n` of draw `w` (R18, R54, R60). -/
theorem endLowerKept_keeps {n w : Nat} (hl : s.leaseOf k = some l) : let u := s.endLowerKept k n w
    u.leaseOf k = some { l with tier := n, draw := w, trans := none } ∧ u.alloc.passDue = true ∧
    u.alloc.committed = s.alloc.committed + max (s.floorOf k) w - s.commitment k ∧
    u.sess = s.sess ∧ u.line = s.line ∧ u.power = s.power ∧ u.mon = s.mon ∧ u.entryOf k = s.entryOf k ∧
    u.notices = s.notices ∧ s.Credits u k (s.commitment k - max (s.floorOf k) w) := by
  dsimp only
  obtain ⟨hlease, hsess, hqueue⟩ := endLowerKept_parts (s := s) (k := k) (u := n) (d := w) hl
  refine ⟨hlease, ?_⟩
  unfold State.endLowerKept at hsess hqueue ⊢
  rw [hl] at hsess hqueue ⊢
  dsimp only at hsess hqueue ⊢
  generalize hv : s.setLease k (some { l with tier := n, draw := w, trans := none }) = v at *
  obtain ⟨_, hline, hpower, hmon, _, hcommitted, _, hnotices⟩ :=
    creditVictim_frame (s := v) (k := k) (n := s.commitment k - v.commitment k)
  have hterm : Lease.term (some { l with tier := n, draw := w, trans := none }) = w := Nat.max_zero _
  have hvcommitted : v.alloc.committed = s.alloc.committed + max (s.floorOf k) w - s.commitment k := by
    rw [← hv, committed_setLease, hterm]
  have hvcommitment : v.commitment k = max (s.floorOf k) w := by rw [← hv, commitment_setLease, if_pos rfl, hterm]
  have hsame : s.ReclaimSame v := by rw [← hv]; exact ⟨rfl, rfl⟩
  refine ⟨Bool.or_true _, hcommitted.trans hvcommitted, hsess, hline.trans (by rw [← hv]; rfl), hpower.trans (by rw [← hv]; rfl),
    hmon.trans (by rw [← hv]; rfl), entryOf_eq_of_queue hqueue, hnotices.trans (by rw [← hv]; rfl), ?_⟩
  rw [hvcommitment]
  exact creditVictim_credits hsame

/-! ### The lease dropped -/

/-- A LOWER that ends with its lease dropped, and the drop's notice (R53, R54). -/
theorem dropped_lowering {c : NoticeKind} {r : Reason} {v : Nat} (hl : s.leaseOf k = some l) (hlow : l.lowering = true) :
    s.Dropped ((s.dropLease k).post c (some k) r v) k (s.sessOf k).admitFlag ∧
    ((s.dropLease k).post c (some k) r v).notices = s.notices.take c (some k) r false v ∧
    (((s.dropLease k).post c (some k) r v).lineOf k).outRecall = none := by
  refine ⟨(dropped_dropLease hl).post, by rw [State.post_notices, dropLease_notices], ?_⟩
  rw [State.lineOf_post, lineOf_dropLease hl]
  exact Line.leaseDropped_outRecall hlow _

/-- A LOWER that ends with a cut: `admitFlag` is cleared first (R51, R52). -/
theorem dropped_cut {v : Nat} (hl : s.leaseOf k = some l) (hlow : l.lowering = true) :
    let d := ((s.modSess k (fun x => { x with admitFlag := false })).dropLease k).post .cut (some k) .recallTimeout v
    s.Dropped d k false ∧ d.notices = s.notices.take .cut (some k) .recallTimeout false v ∧ (d.lineOf k).outRecall = none := by
  obtain ⟨hdropped, hnotices, hrecall⟩ := dropped_lowering (s := s.modSess k (fun x => { x with admitFlag := false })) (c := .cut)
    (r := .recallTimeout) (v := v) hl hlow
  rw [State.sessOf_modSess, if_pos rfl] at hdropped
  exact ⟨hdropped.of_modSess fun _ => ⟨rfl, rfl, rfl⟩, hnotices, hrecall⟩

theorem lowering_of_lower {t w n : Nat} (h : l.trans = some (.lower t w o n)) : l.lowering = true := by
  unfold Lease.lowering; rw [h]

theorem grantedTier_of_lease (hl : s.leaseOf k = some l) : s.grantedTier k = l.tier := by unfold State.grantedTier; rw [hl]

/-- What a drop with its notice and its settlement leave (R53, R54, R60). -/
theorem settleRecalled_drop {c : NoticeKind} {r : Reason} {v : Nat} (hl : s.leaseOf k = some l) (hlow : l.lowering = true) :
    let u := ((s.dropLease k).post c (some k) r v).settleRecalled k o (s.grantedTier k)
    State.OnlyAt k s u ∧ (u.lineOf k).outRecall = none ∧
    s.Settles u k (s.sessOf k).admitFlag (decide (o = .shed)) (s.notices.take c (some k) r false v) ∧
    ((s.policyOf k).enabled = true → (s.sessOf k).admitFlag = true → o = .shed → s.Restored u k l.tier) := by
  obtain ⟨hdropped, hnotices, hrecall⟩ := dropped_lowering (c := c) (r := r) (v := v) hl hlow
  refine ⟨hdropped.onlyAt_settleRecalled, hdropped.outRecall_settleRecalled hrecall, hnotices ▸ hdropped.settlesRecalled,
    fun hen hflag ho => ?_⟩
  rw [hflag] at hdropped
  unfold State.settleRecalled
  rw [if_pos ho, grantedTier_of_lease hl]
  exact hdropped.restored hen

/-- What a cut leaves (R51, R52). -/
theorem cutRecalled_drop (hl : s.leaseOf k = some l) (hlow : l.lowering = true) :
    State.OnlyAt k s (s.cutRecalled k o) ∧ ((s.cutRecalled k o).lineOf k).outRecall = none ∧
    s.Settles (s.cutRecalled k o) k false (decide (o = .shed)) (s.notices.take .cut (some k) .recallTimeout false l.tier) := by
  obtain ⟨hdropped, hnotices, hrecall⟩ := dropped_cut (v := l.tier) hl hlow
  unfold State.cutRecalled
  rw [grantedTier_of_lease hl]
  exact ⟨hdropped.onlyAt_settleRecalled, hdropped.outRecall_settleRecalled hrecall, hnotices ▸ hdropped.settlesRecalled⟩

/-! ### The deadline -/

/-- The latest sample shows the module at or below the draw of its LOWER's target (R51, R131). -/
def State.Silent (s : State) (k : Slot) (w : Nat) : Prop := (s.monOf k).power ≤ w + s.settings.overdrawMargin

theorem lowerExpired_kept {t w : Nat} (h : s.Silent k w) (ht : 1 ≤ t) :
    s.lowerExpired k t w o = (s.endLowerKept k t w).post .recallSilent (some k) o.reason t := by
  unfold State.Silent at h
  unfold State.lowerExpired
  rw [if_pos h, if_neg (by omega)]

theorem lowerExpired_dropped {w : Nat} (h : s.Silent k w) : s.lowerExpired k 0 w o =
    ((s.dropLease k).post .recallSilent (some k) o.reason 0).settleRecalled k o (s.grantedTier k) := by
  unfold State.Silent at h
  unfold State.lowerExpired
  rw [if_pos h, if_pos rfl]

theorem lowerExpired_cut {t w : Nat} (h : ¬ s.Silent k w) : s.lowerExpired k t w o = s.cutRecalled k o := if_neg h

theorem onlyAt_lowerExpired {t w : Nat} (hl : s.leaseOf k = some l) (hlow : l.lowering = true) :
    State.OnlyAt k s (s.lowerExpired k t w o) := by
  by_cases hsilent : s.Silent k w
  · rcases Nat.eq_zero_or_pos t with rfl | ht
    · rw [lowerExpired_dropped hsilent]; exact (settleRecalled_drop hl hlow).1
    · rw [lowerExpired_kept hsilent ht]; exact onlyAt_endLowerKept.trans onlyAt_post
  · rw [lowerExpired_cut hsilent]; exact (cutRecalled_drop hl hlow).1

theorem exec_recallDeadline (hd : s.store.startDone = true) : exec (.recallDeadline k) s = .next (s.deadlinePassed k) :=
  congrArg Host.Outcome.next (if_pos hd)

theorem deadlinePassed_of_lower {t w n : Nat} (hl : s.leaseOf k = some l) (hx : l.trans = some (.lower t w o n)) :
    s.deadlinePassed k = (s.lowerExpired k t w o).finish := by
  unfold State.deadlinePassed
  rw [hl]
  dsimp only
  rw [hx]

theorem deadlinePassed_of_no_lower (h : ∀ l t w o n, s.leaseOf k = some l → l.trans ≠ some (.lower t w o n)) :
    s.deadlinePassed k = s := by
  unfold State.deadlinePassed
  split
  · rfl
  · rename_i l hl
    split
    · rename_i hx; exact absurd hx (h l _ _ _ _ hl)
    · rfl
    · rfl

/-- Settles O20: the deadline by its three ends, each by the lemma that says what it leaves. -/
theorem aDeadlineEndsTheRecall : Obligations.ADeadlineEndsTheRecall := by
  unfold Obligations.ADeadlineEndsTheRecall
  intro k s hd
  refine ⟨fun h => by rw [exec_recallDeadline hd, deadlinePassed_of_no_lower h], fun l target draw origin left hl hx => ?_⟩
  have hlow := lowering_of_lower hx
  have honly := onlyAt_lowerExpired (t := target) (w := draw) (o := origin) hl hlow
  refine ⟨s.lowerExpired k target draw origin, by rw [exec_recallDeadline hd, deadlinePassed_of_lower hl hx], honly.host,
    honly.others, honly.raised, fun hsilent ht => ?_, fun hsilent ht => ?_, fun hdraws => ?_, fun hgone => ?_⟩
  · obtain ⟨hlease, hdue, hcommitted, hsess, hline, hpower, hmon, hentry, hnotices, hcredits⟩ :=
      endLowerKept_keeps (n := target) (w := draw) hl
    rw [lowerExpired_kept hsilent ht]
    exact ⟨hlease, hdue, hcommitted, hsess, hline, hpower, hmon, hentry, by rw [State.post_notices, hnotices], hcredits⟩
  · obtain ⟨_, _, hsettles, hrestored⟩ := settleRecalled_drop (c := .recallSilent) (r := origin.reason) (v := 0) (o := origin) hl hlow
    rw [ht, lowerExpired_dropped hsilent]
    exact ⟨hsettles, hrestored⟩
  · rw [lowerExpired_cut (Nat.not_le.2 hdraws)]
    obtain ⟨_, _, hsettles⟩ := cutRecalled_drop (o := origin) hl hlow
    exact hsettles
  · by_cases hsilent : s.Silent k draw
    · obtain rfl := hgone.resolve_right (Nat.not_lt.2 hsilent)
      rw [lowerExpired_dropped hsilent]
      obtain ⟨_, hrecall, _⟩ := settleRecalled_drop (c := .recallSilent) (r := origin.reason) (v := 0) (o := origin) hl hlow
      exact hrecall
    · rw [lowerExpired_cut hsilent]
      obtain ⟨_, hrecall, _⟩ := cutRecalled_drop (o := origin) hl hlow
      exact hrecall

/-! ### The answer -/

/-- A READY or YIELD that names a tier, taken in ON under the session's tag from a lease with a LOWER to `t` (R50). -/
structure State.Answers (s : State) (k : Slot) (g v : Byte) (c : Instr) : Prop where
  loaded : s.store.startDone = true
  message : c = .yieldTier k g v ∨ c = .ready k g v
  on : (s.sessOf k).state = .on
  tag : g = (s.sessOf k).tag

/-- An answer at or below the target ends the LOWER, one above it does nothing (R50). -/
theorem exec_answer {g v : Byte} {c : Instr} {t w n : Nat} (h : s.Answers k g v c) (hl : s.leaseOf k = some l) (hg : l.tag = g)
    (hx : l.trans = some (.lower t w o n)) : exec c s = .next (State.finish
      (if v.toNat ≤ t then (s.taken c).lowerAnswered k v.toNat o else s.taken c)) := by
  obtain ⟨hd, hc, hon, htag⟩ := h
  have hsess : ∀ c, ((s.taken c).sessOf k).state = .on := fun _ => hon
  have hlease : ∀ c, (s.taken c).leaseOf k = some l := fun _ => hl
  have hframe : ∀ c, g = (s.taken c).frameTag k := fun c => by
    unfold State.frameTag
    rw [hsess c, State.sessOf_taken]
    exact htag
  have hdone : ∀ c, (s.taken c).store.startDone = true := fun _ => hd
  rcases hc with rfl | rfl
  · refine congrArg Host.Outcome.next ?_
    unfold State.whenLoaded State.dispatch State.hearYield State.yieldOn
    rw [if_pos (hdone _), if_pos (hframe _), hsess, hlease]
    dsimp only
    rw [if_pos hg, hx]
  · refine congrArg Host.Outcome.next ?_
    unfold State.whenLoaded State.dispatch State.hearReady State.readyOn
    rw [if_pos (hdone _), if_pos (hframe _), hsess, hlease]
    dsimp only
    rw [hx]
    simp only [hg, true_and]

theorem lowerAnswered_kept {n : Nat} (hn : 1 ≤ n) : s.lowerAnswered k n o =
    ((s.endLowerKept k n (s.drawOf k n)).modLine k (Line.remove .recall)).post .recallDone (some k) o.reason n := by
  unfold State.lowerAnswered
  rw [if_neg (by omega)]

theorem lowerAnswered_dropped : s.lowerAnswered k 0 o =
    ((s.dropLease k).post .recallDone (some k) o.reason 0).settleRecalled k o (s.grantedTier k) := if_pos rfl

theorem onlyAt_lowerAnswered {n : Nat} (hl : s.leaseOf k = some l) (hlow : l.lowering = true) :
    State.OnlyAt k s (s.lowerAnswered k n o) := by
  rcases Nat.eq_zero_or_pos n with rfl | hn
  · rw [lowerAnswered_dropped]; exact (settleRecalled_drop hl hlow).1
  · rw [lowerAnswered_kept hn]; exact (onlyAt_endLowerKept.trans onlyAt_modLine).trans onlyAt_post

/-- Settles O32: an answer above the target does nothing; one that ends the LOWER keeps the lease or drops it. -/
theorem anAnswerEndsTheRecall : Obligations.AnAnswerEndsTheRecall := by
  unfold Obligations.AnAnswerEndsTheRecall
  intro k g v s c l target draw origin left hd hc hon hg hl htag hx
  have hexec := exec_answer ⟨hd, hc, hon, hg⟩ hl htag hx
  have hlow := lowering_of_lower hx
  have hlease : (s.taken c).leaseOf k = some l := hl
  by_cases hle : v.toNat ≤ target
  · rw [if_pos hle] at hexec
    have honly := onlyAt_lowerAnswered (n := v.toNat) (o := origin) hlease hlow
    refine ⟨_, hexec, honly.raised, honly.host, honly.others, fun hlt => absurd hle (Nat.not_le.2 hlt), fun _ hn => ?_, fun _ hn => ?_⟩
    · obtain ⟨hlease', hdue, hcommitted, hsess, hline, hpower, hmon, hentry, hnotices, hcredits⟩ :=
        endLowerKept_keeps (n := v.toNat) (w := s.drawOf k v.toNat) hlease
      have hlineOf : ∀ u : State, (((u.modLine k (Line.remove .recall)).post .recallDone (some k) origin.reason v.toNat).lineOf k) =
          (u.lineOf k).remove .recall := fun u => by rw [State.lineOf_post, State.lineOf_modLine, if_pos rfl]
      rw [lowerAnswered_kept hn]
      refine ⟨hlease', hdue, hcommitted, hcredits, hsess, hpower, hmon, hentry, ?_, ?_, ?_⟩
      · rw [hlineOf]; rfl
      · rw [hlineOf]
        exact congrArg (fun x => (PerSlot.get x k).outClaim) hline
      · rw [State.post_notices]
        exact congrArg (fun q => q.take .recallDone (some k) origin.reason false v.toNat) hnotices
    · obtain ⟨_, hrecall, hsettles, hrestored⟩ :=
        settleRecalled_drop (c := .recallDone) (r := origin.reason) (v := 0) (o := origin) hlease hlow
      rw [hn, lowerAnswered_dropped]
      exact ⟨hrecall, hsettles, hrestored⟩
  · rw [if_neg hle] at hexec
    exact ⟨_, hexec, rfl, .refl s, fun _ _ => ⟨rfl, rfl, rfl, rfl, rfl, rfl⟩, fun _ => rfl, fun h => absurd h hle,
      fun h => absurd h hle⟩

end Sys2Proof.Machine
end

section
/-! PROOFS. The shedding plan of SET_BUDGET covers the excess: what a choice releases, what the sweeps take, and what carrying the plan
out leaves of each slot's base (R2, R66 to R69). -/

namespace Sys2Proof.Machine

variable {s t u : State} {j k : Slot} {c : ShedChoice}

/-! ### Sums over the slots -/

theorem sumSlots_cast (f : Slot → Nat) : (sumSlots f : Int) = (allSlots.map (fun k => (f k : Int))).sum := by
  simp only [sumSlots, allSlots, List.map_cons, List.map_nil, List.sum_cons, List.sum_nil]
  omega

theorem sum_map_sub {α : Type} (f g : α → Int) (l : List α) : (l.map (fun x => f x - g x)).sum = (l.map f).sum - (l.map g).sum := by
  induction l with
  | nil => rfl
  | cons x xs ih => simp only [List.map_cons, List.sum_cons, ih]; omega

/-- What a slot would leave committed, its LOWER in flight done (R17, R67). -/
theorem shedBase_eq : (s.shedBase k : Int) = (s.commitment k : Int) - s.pendingRelease k := by
  unfold State.shedBase State.pendingRelease
  rcases s.leaseOf k with _ | ⟨_, _, _, _, _ | _ | _⟩ <;> simp

/-- What the slots leave committed together, every LOWER in flight done. -/
def State.bases (s : State) : Int := (allSlots.map (fun k => (s.shedBase k : Int))).sum

theorem bases_eq (h : s.CommittedLaw) : s.bases = (s.alloc.committed : Int) - (allSlots.map s.pendingRelease).sum := by
  unfold State.bases
  rw [h, sumSlots_cast, ← sum_map_sub]
  simp only [shedBase_eq]

theorem shedNeed_eq (h : s.CommittedLaw) : s.shedNeed = s.bases - s.available := by
  rw [bases_eq h]; unfold State.shedNeed; omega

/-! ### Choices -/

/-- What the laws say of slot `k`'s lease, as far as a shedding plan asks: it goes with the session state, its tier is one of the
list's, and a LOWER in flight has a lower target with its draw (R9, R13). -/
structure State.LeaseFit (s : State) (k : Slot) (l : Lease) : Prop where
  leased : (s.sessOf k).state.leased = true
  pos : 1 ≤ l.tier
  lower : ∀ t d o n, l.trans = some (.lower t d o n) → (s.sessOf k).state = .on ∧ t < l.tier ∧ d = s.drawOf k t
  raise : ∀ t d o, l.trans = some (.raise t d o) → (s.sessOf k).state = .on

/-- The slot's lease, if it has one, is fit for a shedding plan. -/
def State.SlotFit (s : State) (k : Slot) : Prop := ∀ l, s.leaseOf k = some l → s.LeaseFit k l

theorem slotFit_of_laws (hc : s.Coherent) (ht : s.TierLaw) (k : Slot) : s.SlotFit k := by
  intro l hl
  obtain ⟨_, hlease, _⟩ := ht k
  obtain ⟨hpos, _, _, htrans⟩ := hlease l hl
  refine ⟨?_, hpos, fun t d o n hx => htrans _ hx, fun t d o hx => (htrans _ hx).1⟩
  rw [← (hc.1 k).1, hl]; rfl

/-- What slot `k` leaves committed when choice `c` has been carried out and any LOWER of it is done (R67). -/
def State.leaves (s : State) (k : Slot) : ShedChoice → Nat
  | .cancelRaise => max (s.floorOf k) ((s.leaseOf k).elim 0 Lease.draw)
  | .recall t => max (s.floorOf k) (s.drawOf k t)
  | .abort => s.floorOf k

theorem release_eq : s.release k c = (s.shedBase k : Int) - s.leaves k c := by cases c <;> rfl

/-- The floor is the least that a slot's choice can leave (R67). -/
theorem floorOf_le_leaves : s.floorOf k ≤ s.leaves k c := by
  cases c
  · exact Nat.le_max_left _ _
  · exact Nat.le_max_left _ _
  · exact le_rfl

theorem drawOf_zero : s.drawOf k 0 = 0 := by
  unfold State.drawOf Descriptor.drawOf
  split <;> rfl

theorem floorOf_le_shedBase : s.floorOf k ≤ s.shedBase k := by
  unfold State.shedBase State.commitment
  rcases s.leaseOf k with _ | ⟨_, _, _, _, _ | _ | _⟩ <;> exact Nat.le_max_left _ _

theorem release_recall_zero : s.release k (.recall 0) = (s.shedBase k : Int) - s.floorOf k := by
  have hleaves : s.leaves k (.recall 0) = s.floorOf k := by
    show max (s.floorOf k) (s.drawOf k 0) = _
    rw [drawOf_zero, Nat.max_zero]
  rw [release_eq, hleaves]

theorem getLast?_recallsBelow {n : Nat} (hn : 1 ≤ n) : (recallsBelow n).getLast? = some (.recall 0) := by
  induction n with
  | zero => cases hn
  | succ n ih =>
    rcases Nat.eq_zero_or_pos n with rfl | hn'
    · rfl
    · unfold recallsBelow; rw [List.getLast?_cons, ih hn']; rfl

theorem mem_recallsBelow {n : Nat} : c ∈ recallsBelow n ↔ ∃ t, c = .recall t ∧ t < n := by
  induction n with
  | zero => exact ⟨fun h => (by cases h), fun ⟨_, _, h⟩ => absurd h (Nat.not_lt_zero _)⟩
  | succ n ih =>
    unfold recallsBelow
    rw [List.mem_cons, ih]
    constructor
    · rintro (rfl | ⟨t, rfl, ht⟩)
      · exact ⟨n, rfl, Nat.lt_succ_self n⟩
      · exact ⟨t, rfl, Nat.lt_succ_of_lt ht⟩
    · rintro ⟨t, rfl, ht⟩
      rcases Nat.lt_succ_iff_lt_or_eq.1 ht with ht | rfl
      · exact .inr ⟨t, rfl, ht⟩
      · exact .inl rfl

/-- What a lease may be asked for, before the choices that release nothing are left out (R67). -/
def Lease.offers (st : SessState) (l : Lease) : List ShedChoice :=
  match st with
  | .on =>
    match l.trans with
    | none => recallsBelow l.tier
    | some (.raise _ _ _) => .cancelRaise :: recallsBelow l.tier
    | some (.lower t _ _ _) => recallsBelow t
  | .rampWait | .ramping => [.abort]
  | .vacant | .barred | .listening | .rejected | .standby | .faulted => []

theorem choices_of_none (h : s.leaseOf k = none) : s.choices k = [] := by unfold State.choices; rw [h]

theorem choices_of_lease {l : Lease} (h : s.leaseOf k = some l) :
    s.choices k = (l.offers (s.sessOf k).state).filter (fun c => decide (0 < s.release k c)) := by
  unfold State.choices
  rw [h]
  cases (s.sessOf k).state <;> rfl

/-- A lease offers its floor last, or is there already (R67). -/
theorem offers_lowest {l : Lease} (hl : s.leaseOf k = some l) (h : s.LeaseFit k l) : s.shedBase k = s.floorOf k ∨
    ∃ c, (l.offers (s.sessOf k).state).getLast? = some c ∧ s.release k c = (s.shedBase k : Int) - s.floorOf k := by
  unfold Lease.offers
  cases hs : (s.sessOf k).state with
  | on =>
    dsimp only
    rcases hx : l.trans with _ | ⟨t, d, o⟩ | ⟨t, d, o, n⟩
    · exact .inr ⟨_, getLast?_recallsBelow h.pos, release_recall_zero⟩
    · exact .inr ⟨.recall 0, by dsimp only; rw [List.getLast?_cons, getLast?_recallsBelow h.pos]; rfl, release_recall_zero⟩
    · obtain ⟨_, _, hdraw⟩ := h.lower t d o n hx
      rcases Nat.eq_zero_or_pos t with rfl | ht
      · left
        unfold State.shedBase; rw [hl]; dsimp only; rw [hx, hdraw, drawOf_zero]; exact Nat.max_zero _
      · exact .inr ⟨_, getLast?_recallsBelow ht, release_recall_zero⟩
  | rampWait | ramping => exact .inr ⟨.abort, rfl, rfl⟩
  | vacant | barred | listening | rejected | standby | faulted => have := h.leased; rw [hs] at this; cases this

/-- What the choice in `o`, if there is one, releases. -/
def State.releaseOf (s : State) (k : Slot) (o : Option ShedChoice) : Int := o.elim 0 (s.release k)

/-- A slot's lowest choice takes it to its floor (R67). -/
theorem releaseOf_lowest (h : s.SlotFit k) : s.releaseOf k (s.choices k).getLast? = (s.shedBase k : Int) - s.floorOf k := by
  have hge := floorOf_le_shedBase (s := s) (k := k)
  have hempty : s.shedBase k = s.floorOf k → s.releaseOf k (s.choices k).getLast? = (s.shedBase k : Int) - s.floorOf k := by
    intro hbase
    have hnone : s.choices k = [] := by
      cases hl : s.leaseOf k with
      | none => exact choices_of_none hl
      | some l =>
        rw [choices_of_lease hl, List.filter_eq_nil_iff]
        intro c _
        have := floorOf_le_leaves (s := s) (k := k) (c := c)
        rw [release_eq, decide_eq_true_eq]; omega
    rw [hnone, hbase]; exact (Int.sub_self _).symm
  cases hl : s.leaseOf k with
  | none =>
    refine hempty ?_
    unfold State.shedBase; rw [hl]; exact commitment_of_no_lease hl
  | some l =>
    rcases offers_lowest hl (h l hl) with hbase | ⟨c, hlast, hrel⟩
    · exact hempty hbase
    · by_cases hbase : s.shedBase k = s.floorOf k
      · exact hempty hbase
      · obtain ⟨cs, hcs⟩ := List.getLast?_eq_some_iff.1 hlast
        have hpos : decide (0 < s.release k c) = true := by rw [hrel]; exact decide_eq_true (by omega)
        rw [choices_of_lease hl, hcs, List.filter_append,
          List.filter_cons_of_pos (p := fun c => decide (0 < s.release k c)) hpos, List.filter_nil, List.getLast?_concat]
        exact hrel

/-! ### The sweeps -/

/-- What the choices of a plan release together (R68). -/
def State.releases (s : State) (plan : List (Slot × ShedChoice)) : Int := (plan.map (fun p => s.release p.1 p.2)).sum

theorem releases_cons (p : Slot × ShedChoice) (plan : List (Slot × ShedChoice)) :
    s.releases (p :: plan) = s.release p.1 p.2 + s.releases plan := List.sum_cons

theorem releases_append (plan rest : List (Slot × ShedChoice)) : s.releases (plan ++ rest) = s.releases plan + s.releases rest := by
  unfold State.releases; rw [List.map_append, List.sum_append]

/-- A plan with at most one choice for each slot of `ks`, in their order. -/
structure PlanOver (ks : List Slot) (allowed : Slot → ShedChoice → Prop) (plan : List (Slot × ShedChoice)) : Prop where
  order : (plan.map Prod.fst).Sublist ks
  allowed : ∀ p ∈ plan, allowed p.1 p.2

theorem PlanOver.nil {ks : List Slot} {allowed : Slot → ShedChoice → Prop} : PlanOver ks allowed [] :=
  ⟨List.nil_sublist _, fun _ hp => (by cases hp)⟩

theorem PlanOver.skip {ks : List Slot} {allowed : Slot → ShedChoice → Prop} {plan : List (Slot × ShedChoice)}
    (h : PlanOver ks allowed plan) : PlanOver (k :: ks) allowed plan := ⟨h.order.cons k, h.allowed⟩

theorem PlanOver.cons {ks : List Slot} {allowed : Slot → ShedChoice → Prop} {plan : List (Slot × ShedChoice)}
    (h : PlanOver ks allowed plan) (hc : allowed k c) : PlanOver (k :: ks) allowed ((k, c) :: plan) :=
  ⟨h.order.cons_cons k, List.forall_mem_cons.2 ⟨hc, h.allowed⟩⟩

theorem sweep_of_done {choose : Slot → List ShedChoice} {need : Int} (h : need ≤ 0) (ks : List Slot) :
    s.sweep choose ks need = ([], need) := by
  cases ks with
  | nil => rfl
  | cons k ks => exact if_pos h

theorem sweep_of_none {choose : Slot → List ShedChoice} {ks : List Slot} {need : Int} (h : 0 < need)
    (hp : s.pick k need (choose k) = none) : s.sweep choose (k :: ks) need = s.sweep choose ks need := by
  rw [State.sweep, if_neg (by omega), hp]

theorem sweep_of_some {choose : Slot → List ShedChoice} {ks : List Slot} {need : Int} (h : 0 < need)
    (hp : s.pick k need (choose k) = some c) : s.sweep choose (k :: ks) need =
      ((k, c) :: (s.sweep choose ks (need - s.release k c)).1, (s.sweep choose ks (need - s.release k c)).2) := by
  rw [State.sweep, if_neg (by omega), hp]

/-- What a sweep picks is a choice, and the last one where it does not cover the need (R68). -/
theorem pick_spec {need : Int} {cs : List ShedChoice} : (∀ c, s.pick k need cs = some c → c ∈ cs ∧
      (need ≤ s.release k c ∨ cs.getLast? = some c)) ∧ (s.pick k need cs = none → cs.getLast? = none) := by
  unfold State.pick
  cases hf : cs.find? (fun c => decide (need ≤ s.release k c)) with
  | none => exact ⟨fun c hc => ⟨List.mem_of_getLast? hc, .inr hc⟩, id⟩
  | some c =>
    refine ⟨fun c' hc' => ?_, fun h => (by cases h)⟩
    obtain rfl : c = c' := Option.some.inj hc'
    exact ⟨List.mem_of_find?_eq_some hf, .inl (of_decide_eq_true (List.find?_some hf :))⟩

/-- What a sweep takes, and the need that remains: where it remains, every slot's lowest choice is taken (R68). -/
theorem sweep_spec (choose : Slot → List ShedChoice) (ks : List Slot) (need : Int) :
    PlanOver ks (fun k c => c ∈ choose k) (s.sweep choose ks need).1 ∧
    (s.sweep choose ks need).2 = need - s.releases (s.sweep choose ks need).1 ∧
    (0 < (s.sweep choose ks need).2 →
      s.releases (s.sweep choose ks need).1 = (ks.map (fun k => s.releaseOf k (choose k).getLast?)).sum) := by
  induction ks generalizing need with
  | nil => exact ⟨.nil, (Int.sub_zero _).symm, fun _ => rfl⟩
  | cons k ks ih =>
    by_cases hdone : need ≤ 0
    · rw [sweep_of_done hdone]
      exact ⟨.nil, (Int.sub_zero _).symm, fun h => absurd hdone (by dsimp only at h; omega)⟩
    · have hneed : 0 < need := by omega
      obtain ⟨hsome, hnone⟩ := pick_spec (s := s) (k := k) (need := need) (cs := choose k)
      rw [List.map_cons, List.sum_cons]
      cases hp : s.pick k need (choose k) with
      | none =>
        obtain ⟨hover, hleft, hlow⟩ := ih need
        rw [sweep_of_none hneed hp, hnone hp]
        exact ⟨hover.skip, hleft, fun h => (hlow h).trans (Int.zero_add _).symm⟩
      | some c =>
        obtain ⟨hover, hleft, hlow⟩ := ih (need - s.release k c)
        obtain ⟨hmem, hlast⟩ := hsome c hp
        rw [sweep_of_some hneed hp]
        dsimp only
        rw [releases_cons]
        refine ⟨hover.cons hmem, by dsimp only; omega, fun h => ?_⟩
        rcases hlast with hcover | hlast
        · rw [sweep_of_done (by omega)] at h
          dsimp only at h; omega
        · rw [hlast, hlow h]; rfl

theorem planned_cons_self (plan : List (Slot × ShedChoice)) : planned ((k, c) :: plan) k = some c := by
  unfold planned; rw [List.find?_cons_of_pos (by exact beq_self_eq_true k)]; rfl

theorem planned_cons_ne {plan : List (Slot × ShedChoice)} (h : j ≠ k) : planned ((k, c) :: plan) j = planned plan j := by
  unfold planned; rw [List.find?_cons_of_neg (by simpa using Ne.symm h)]

theorem planned_mem {plan : List (Slot × ShedChoice)} (h : planned plan k = some c) : (k, c) ∈ plan := by
  obtain ⟨⟨k', c'⟩, hf, rfl⟩ := Option.map_eq_some_iff.1 h
  obtain rfl : k' = k := by simpa using List.find?_some hf
  exact List.mem_of_find?_eq_some hf

theorem planned_none {plan : List (Slot × ShedChoice)} (h : k ∉ plan.map Prod.fst) : planned plan k = none := by
  unfold planned
  rw [List.find?_eq_none.2 fun p hp => ?_]
  · rfl
  · simp only [beq_iff_eq]; rintro rfl; exact h (List.mem_map_of_mem hp)

/-- What a plan releases, read off slot by slot. -/
theorem releases_eq_planned {ks : List Slot} {plan : List (Slot × ShedChoice)} (hn : ks.Nodup) (h : (plan.map Prod.fst).Sublist ks) :
    (ks.map (fun k => s.releaseOf k (planned plan k))).sum = s.releases plan := by
  induction ks generalizing plan with
  | nil =>
    obtain rfl : plan = [] := List.map_eq_nil_iff.1 (List.sublist_nil.1 h)
    rfl
  | cons k ks ih =>
    obtain ⟨hk, hks⟩ := List.nodup_cons.1 hn
    rw [List.map_cons, List.sum_cons]
    cases plan with
    | nil => rw [ih hks (plan := []) (List.nil_sublist _)]; rfl
    | cons p plan =>
      obtain ⟨k', c⟩ := p
      rw [List.map_cons] at h
      cases h with
      | cons _ h =>
        rw [planned_none fun hm => hk (h.subset hm), ih hks (plan := (k', c) :: plan) h]
        exact Int.zero_add _
      | cons_cons _ h =>
        have hrest : ∀ j ∈ ks, s.releaseOf j (planned ((k', c) :: plan) j) = s.releaseOf j (planned plan j) := fun j hj => by
          rw [planned_cons_ne (by rintro rfl; exact hk hj)]
        rw [planned_cons_self, List.map_congr_left hrest, ih hks h, releases_cons]
        rfl

/-- The choice kept where sweep B's second round does not come (R68). -/
def keptChoice (first : List (Slot × ShedChoice)) (k : Slot) : List (Slot × ShedChoice) :=
  match planned first k with
  | some c => [(k, c)]
  | none => []

theorem releases_keptChoice (first : List (Slot × ShedChoice)) (k : Slot) :
    s.releases (keptChoice first k) = s.releaseOf k (planned first k) := by
  unfold keptChoice
  split
  · rename_i hp; rw [hp]; exact Int.add_zero _
  · rename_i hp; rw [hp]; rfl

theorem PlanOver.keep {ks : List Slot} {first plan : List (Slot × ShedChoice)} {allowed : Slot → ShedChoice → Prop}
    (h : PlanOver ks allowed plan) (hf : ∀ p ∈ first, allowed p.1 p.2) :
    PlanOver (k :: ks) allowed (keptChoice first k ++ plan) := by
  unfold keptChoice
  split
  · rename_i c hp; exact h.cons (hf _ (planned_mem hp))
  · exact h.skip

theorem sweepOff_of_done {first : List (Slot × ShedChoice)} {ks : List Slot} {need : Int} (h : need ≤ 0) :
    s.sweepOff first (k :: ks) need = keptChoice first k ++ s.sweepOff first ks need := if_pos h

theorem sweepOff_of_none {first : List (Slot × ShedChoice)} {ks : List Slot} {need : Int} (h : 0 < need)
    (hc : (s.choices k).getLast? = none) : s.sweepOff first (k :: ks) need = keptChoice first k ++ s.sweepOff first ks need := by
  rw [State.sweepOff, if_neg (by omega), hc]; rfl

theorem sweepOff_of_some {first : List (Slot × ShedChoice)} {ks : List Slot} {need : Int} (h : 0 < need)
    (hc : (s.choices k).getLast? = some c) : s.sweepOff first (k :: ks) need =
      (k, c) :: s.sweepOff first ks (need - (s.release k c - s.releaseOf k (planned first k))) := by
  rw [State.sweepOff, if_neg (by omega), hc]; rfl

/-- Once the need is covered the second round keeps the first (R68). -/
theorem releases_sweepOff_of_done {first : List (Slot × ShedChoice)} {need : Int} (h : need ≤ 0) (ks : List Slot) :
    s.releases (s.sweepOff first ks need) = (ks.map (fun k => s.releaseOf k (planned first k))).sum := by
  induction ks with
  | nil => rfl
  | cons k ks ih => rw [sweepOff_of_done h, releases_append, releases_keptChoice, ih, List.map_cons, List.sum_cons]

/-- The second round covers the need beyond what the first released, or takes every slot's lowest choice (R68). -/
theorem sweepOff_spec {first : List (Slot × ShedChoice)} (hf : ∀ p ∈ first, p.2 ∈ s.choices p.1) (ks : List Slot) (need : Int) :
    PlanOver ks (fun k c => c ∈ s.choices k) (s.sweepOff first ks need) ∧
    (need + (ks.map (fun k => s.releaseOf k (planned first k))).sum ≤ s.releases (s.sweepOff first ks need) ∨
      s.releases (s.sweepOff first ks need) = (ks.map (fun k => s.releaseOf k (s.choices k).getLast?)).sum) := by
  induction ks generalizing need with
  | nil => exact ⟨.nil, .inr rfl⟩
  | cons k ks ih =>
    by_cases hdone : need ≤ 0
    · refine ⟨?_, .inl ?_⟩
      · rw [sweepOff_of_done hdone]; exact (ih need).1.keep hf
      · rw [releases_sweepOff_of_done hdone]; omega
    · have hneed : 0 < need := by omega
      rw [List.map_cons, List.sum_cons, List.map_cons, List.sum_cons]
      cases hlast : (s.choices k).getLast? with
      | none =>
        have hempty : s.choices k = [] := List.getLast?_eq_none_iff.1 hlast
        have hfresh : planned first k = none := by
          cases hp : planned first k with
          | none => rfl
          | some c => have := hf _ (planned_mem hp); rw [hempty] at this; cases this
        obtain ⟨hover, hcover⟩ := ih need
        rw [sweepOff_of_none hneed hlast, releases_append, releases_keptChoice, hfresh]
        exact ⟨hover.keep hf, by simpa [State.releaseOf] using hcover⟩
      | some c =>
        obtain ⟨hover, hcover⟩ := ih (need - (s.release k c - s.releaseOf k (planned first k)))
        rw [sweepOff_of_some hneed hlast, releases_cons]
        refine ⟨hover.cons (List.mem_of_getLast? hlast), hcover.imp (fun h => by dsimp only; omega) fun h => ?_⟩
        rw [h]; rfl

/-! ### The plan -/

/-- The DEFERRABLE slots, in shedding order (R68, sweep A). -/
def State.deferrables (s : State) : List Slot := s.shedOrder.filter (fun k => decide ((s.policyOf k).cls = .deferrable))

/-- The ESSENTIAL slots, in shedding order (R68, sweep B). -/
def State.essentials (s : State) : List Slot := s.shedOrder.filter (fun k => decide ((s.policyOf k).cls = .essential))

theorem classes_perm : (s.deferrables ++ s.essentials).Perm allSlots := by
  have hess : s.essentials = s.shedOrder.filter (fun k => !decide ((s.policyOf k).cls = .deferrable)) := by
    unfold State.essentials
    congr 1
    funext k
    cases (s.policyOf k).cls <;> rfl
  rw [hess]
  exact (List.filter_append_perm _ _).trans shedOrder_perm

/-- Where every slot's lowest choice is taken, the floors are left. -/
theorem releases_lowest (h : ∀ k, s.SlotFit k) :
    (s.deferrables.map (fun k => s.releaseOf k (s.choices k).getLast?)).sum +
      (s.essentials.map (fun k => s.releaseOf k (s.choices k).getLast?)).sum = s.bases - s.floorSum := by
  rw [← List.sum_append, ← List.map_append, (classes_perm.map _).sum_eq, List.map_congr_left fun k _ => releaseOf_lowest (h k),
    sum_map_sub]
  unfold State.floorSum State.bases
  rw [sumSlots_cast]

/-- Sweep A (R68): what it takes, and the need that remains. -/
def State.sweepA (s : State) : List (Slot × ShedChoice) × Int := s.sweep s.choices s.deferrables s.shedNeed

/-- Sweep B's first round (R68): what it takes, and the need that remains. -/
def State.sweepB (s : State) : List (Slot × ShedChoice) × Int :=
  s.sweep (fun k => (s.choices k).filter ShedChoice.keepsPath) s.essentials s.sweepA.2

theorem shedPlan_eq (s : State) : s.shedPlan =
    if s.sweepB.2 ≤ 0 then s.sweepA.1 ++ s.sweepB.1 else s.sweepA.1 ++ s.sweepOff s.sweepB.1 s.essentials s.sweepB.2 := rfl

theorem sweepA_spec : PlanOver s.deferrables (fun k c => c ∈ s.choices k) s.sweepA.1 ∧
    s.sweepA.2 = s.shedNeed - s.releases s.sweepA.1 ∧
    (0 < s.sweepA.2 → s.releases s.sweepA.1 = (s.deferrables.map (fun k => s.releaseOf k (s.choices k).getLast?)).sum) :=
  sweep_spec ..

theorem sweepB_spec : PlanOver s.essentials (fun k c => c ∈ s.choices k) s.sweepB.1 ∧
    s.sweepB.2 = s.sweepA.2 - s.releases s.sweepB.1 := by
  obtain ⟨hover, hleft, _⟩ := sweep_spec (s := s) (fun k => (s.choices k).filter ShedChoice.keepsPath) s.essentials s.sweepA.2
  exact ⟨⟨hover.order, fun p hp => (List.mem_filter.1 (hover.allowed p hp)).1⟩, hleft⟩

/-- A need that sweep B leaves was left by sweep A (R68). -/
theorem sweepA_left (h : 0 < s.sweepB.2) : 0 < s.sweepA.2 := by
  by_contra hno
  unfold State.sweepB at h
  rw [sweep_of_done (by omega)] at h
  exact hno h

/-- The shedding plan holds one of its choices for a slot, and covers its need where the floors fit (R2, R68). -/
theorem shedPlan_covers (h : ∀ k, s.SlotFit k) (hc : s.CommittedLaw) (hfits : s.floorSum ≤ s.available) :
    (s.shedPlan.map Prod.fst).Nodup ∧ (∀ p ∈ s.shedPlan, p.2 ∈ s.choices p.1) ∧ s.shedNeed ≤ s.releases s.shedPlan := by
  have hnodup : (s.deferrables ++ s.essentials).Nodup := classes_perm.nodup_iff.2 (by decide)
  obtain ⟨_, hessentials, _⟩ := List.nodup_append.1 hnodup
  have hall := releases_lowest h
  have hneed := shedNeed_eq hc
  have hleft := sweepA_left (s := s)
  obtain ⟨hoverA, hleftA, hlowA⟩ := sweepA_spec (s := s)
  obtain ⟨hoverB, hleftB⟩ := sweepB_spec (s := s)
  have hjoin : ∀ plan, PlanOver s.essentials (fun k c => c ∈ s.choices k) plan → ((s.sweepA.1 ++ plan).map Prod.fst).Nodup ∧
      ∀ p ∈ s.sweepA.1 ++ plan, p.2 ∈ s.choices p.1 := fun plan hover => by
    rw [List.map_append]
    exact ⟨hnodup.sublist (hoverA.order.append hover.order), List.forall_mem_append.2 ⟨hoverA.allowed, hover.allowed⟩⟩
  rw [shedPlan_eq]
  split
  · obtain ⟨hslots, hmem⟩ := hjoin _ hoverB
    refine ⟨hslots, hmem, ?_⟩
    rw [releases_append]
    omega
  · obtain ⟨hover, hcover⟩ := sweepOff_spec hoverB.allowed s.essentials s.sweepB.2
    obtain ⟨hslots, hmem⟩ := hjoin _ hover
    refine ⟨hslots, hmem, ?_⟩
    rw [releases_eq_planned hessentials hoverB.order] at hcover
    have hlow := hlowA (hleft (by omega))
    rw [releases_append]
    rcases hcover with hcover | hcover <;> omega

end Sys2Proof.Machine
end

section
/-! PROOFS. The shedding plan carried out: each choice takes its slot's base to what it leaves, and SET_BUDGET ends with the excess
covered (R66 to R69). -/

namespace Sys2Proof.Machine

variable {s t u : State} {j k : Slot} {l : Lease} {c : ShedChoice} {n : Nat} {o : RecallOrigin}

/-! ### What a plan reads of a slot -/

/-- A lease is fit by its session and the session's list alone. -/
theorem State.SlotFit.congr (h : s.SlotFit j) (hl : t.leaseOf j = s.leaseOf j) (hs : t.sessOf j = s.sessOf j) : t.SlotFit j := by
  intro l hl'
  obtain ⟨hleased, hpos, hlower, hraise⟩ := h l (hl.symm.trans hl')
  have hdraw : ∀ m, t.drawOf j m = s.drawOf j m := drawOf_congr (by rw [hs])
  refine ⟨by rw [hs]; exact hleased, hpos, fun m w o d hx => ?_, fun m w o hx => by rw [hs]; exact hraise m w o hx⟩
  rw [hs, hdraw]
  exact hlower m w o d hx

section SameSlot

theorem floorOf_of_cmd (hc : t.cmd = s.cmd) (j : Slot) : t.floorOf j = s.floorOf j := by
  unfold State.floorOf State.policyOf; rw [hc]

theorem State.SameSlot.drawOf (hs : s.SameSlot t j) (m : Nat) : t.drawOf j m = s.drawOf j m := drawOf_congr (by rw [hs.1]) m

variable (hs : s.SameSlot t j) (hc : t.cmd = s.cmd)
include hs hc

theorem commitment_same : t.commitment j = s.commitment j := by
  unfold State.commitment; rw [floorOf_of_cmd hc, hs.leaseOf]

theorem shedBase_same : t.shedBase j = s.shedBase j := by
  unfold State.shedBase; rw [hs.leaseOf, commitment_same hs hc, floorOf_of_cmd hc]

theorem release_same : t.release j = s.release j := by
  funext c
  rw [release_eq, release_eq, shedBase_same hs hc]
  congr 2
  unfold State.leaves
  cases c <;> dsimp only
  · rw [floorOf_of_cmd hc, hs.leaseOf]
  · rw [floorOf_of_cmd hc, hs.drawOf]
  · rw [floorOf_of_cmd hc]

theorem choices_same : t.choices j = s.choices j := by
  cases hl : s.leaseOf j with
  | none => rw [choices_of_none hl, choices_of_none (hs.leaseOf.trans hl)]
  | some l => rw [choices_of_lease hl, choices_of_lease (hs.leaseOf.trans hl), hs.1, release_same hs hc]

end SameSlot

/-! ### One choice carried out -/

theorem onlyAt_cancelRaise : State.OnlyAt k s (s.cancelRaise k) := by
  unfold State.cancelRaise
  split
  · exact .refl s k
  · split
    · exact onlyAt_setLease.trans onlyAt_modLine
    · exact .refl s k

theorem onlyAt_recallOn : State.OnlyAt k s (s.recallOn k n o) := by
  rcases recallOn_cases (s := s) (k := k) n o with hnone | ⟨l, m, d, _, hput⟩
  · rw [hnone]; exact .refl s k
  · rw [hput]; exact (onlyAt_setLease.trans onlyAt_modLine).trans onlyAt_post

theorem shedBase_of_plain (hl : s.leaseOf k = some l) (hx : l.trans = none) : s.shedBase k = max (s.floorOf k) l.draw := by
  unfold State.shedBase State.commitment Lease.term
  rw [hl]; dsimp only; rw [hx]
  exact congrArg (max _) (Nat.max_zero _)

theorem shedBase_of_lower {m w d : Nat} (hl : s.leaseOf k = some l) (hx : l.trans = some (.lower m w o d)) :
    s.shedBase k = max (s.floorOf k) w := by
  unfold State.shedBase; rw [hl]; dsimp only; rw [hx]

theorem shedBase_of_none (hl : s.leaseOf k = none) : s.shedBase k = s.floorOf k := by
  unfold State.shedBase; rw [hl]; exact commitment_of_no_lease hl

/-- The lease after a RAISE on it, if there is one, has been cancelled (R16). -/
theorem leaseOf_cancelRaise (hl : s.leaseOf k = some l) : (s.cancelRaise k).leaseOf k = some { l with trans :=
    match l.trans with
    | some (.raise _ _ _) => none
    | x => x } := by
  unfold State.cancelRaise State.raising
  rw [hl]
  rcases l with ⟨_, _, _, _, _ | _ | _⟩
  · exact hl
  · exact PerSlot.get_set_self _ _ _
  · exact hl

/-- A recall below the granted tier, and below the target of a LOWER in flight, leaves a LOWER to its own target (R46, R48). -/
theorem leaseOf_recallOn (hl : s.leaseOf k = some l) (hn : n < l.tier) (hold : ∀ m w o d, l.trans = some (.lower m w o d) → n < m) :
    ∃ d, (s.recallOn k n o).leaseOf k = some { l with trans := some (.lower n (s.drawOf k n) o d) } := by
  have hput : ∀ d, (s.putLower k l n o d).leaseOf k = some { l with trans := some (.lower n (s.drawOf k n) o d) } :=
    fun d => PerSlot.get_set_self _ _ _
  unfold State.recallOn
  rw [hl]
  dsimp only
  rw [if_pos hn]
  rcases hx : l.trans with _ | _ | ⟨m, w, g, d⟩
  · exact ⟨_, hput _⟩
  · exact ⟨_, hput _⟩
  · dsimp only
    rw [Nat.min_eq_right (Nat.le_of_lt (hold m w g d hx))]
    exact ⟨_, hput _⟩

/-- What a choice of a lease says of session and lease (R67). -/
theorem offers_cases (h : s.LeaseFit k l) (hc : c ∈ l.offers (s.sessOf k).state) :
    (c = .cancelRaise ∧ ∃ m w o, l.trans = some (.raise m w o)) ∨
    (∃ m, c = .recall m ∧ (s.sessOf k).state = .on ∧ m < l.tier ∧ ∀ m' w o d, l.trans = some (.lower m' w o d) → m < m') ∨
    (c = .abort ∧ ((s.sessOf k).state = .rampWait ∨ (s.sessOf k).state = .ramping)) := by
  unfold Lease.offers at hc
  cases hs : (s.sessOf k).state with
  | on =>
    rw [hs] at hc
    rcases hx : l.trans with _ | ⟨m, w, o⟩ | ⟨m, w, o, d⟩
    · rw [hx] at hc
      obtain ⟨m, rfl, hm⟩ := mem_recallsBelow.1 hc
      exact .inr (.inl ⟨m, rfl, rfl, hm, fun _ _ _ _ h' => (by cases h')⟩)
    · rw [hx] at hc
      rcases List.mem_cons.1 hc with rfl | hc
      · exact .inl ⟨rfl, m, w, o, rfl⟩
      · obtain ⟨m, rfl, hm⟩ := mem_recallsBelow.1 hc
        exact .inr (.inl ⟨m, rfl, rfl, hm, fun _ _ _ _ h' => (by cases h')⟩)
    · rw [hx] at hc
      obtain ⟨m', rfl, hm⟩ := mem_recallsBelow.1 hc
      obtain ⟨_, hlt, _⟩ := h.lower m w o d hx
      exact .inr (.inl ⟨m', rfl, rfl, hm.trans hlt, fun _ _ _ _ h' => (by cases h'; exact hm)⟩)
  | rampWait => rw [hs] at hc; exact .inr (.inr ⟨List.mem_singleton.1 hc, .inl rfl⟩)
  | ramping => rw [hs] at hc; exact .inr (.inr ⟨List.mem_singleton.1 hc, .inr rfl⟩)
  | vacant | barred | listening | rejected | standby | faulted => rw [hs] at hc; cases hc

theorem recall_of_on (h : (s.sessOf k).state = .on) : s.recall k n o = (s.cancelRaise k).recallOn k n o := by
  unfold State.recall; rw [h]

theorem abortRamp_of_ramp (h : (s.sessOf k).state = .rampWait ∨ (s.sessOf k).state = .ramping) : s.abortRamp k =
    ((s.dropLease k).post .cut (some k) .shed (s.grantedTier k)).settleRecalled k .shed (s.grantedTier k) := by
  unfold State.abortRamp
  rcases h with h | h <;> rw [h] <;> rfl

/-- A choice carried out reaches its slot only, and takes the slot's base to what the choice leaves (R69). -/
theorem carryOut_leaves (h : s.SlotFit k) (hc : c ∈ s.choices k) :
    State.OnlyAt k s (s.carryOut (k, c)) ∧ (s.carryOut (k, c)).shedBase k = s.leaves k c := by
  cases hl : s.leaseOf k with
  | none => rw [choices_of_none hl] at hc; cases hc
  | some l =>
    rw [choices_of_lease hl, List.mem_filter] at hc
    have hcancel := leaseOf_cancelRaise hl
    rcases offers_cases (h l hl) hc.1 with ⟨rfl, m, w, g, hx⟩ | ⟨m, rfl, hon, hlt, hold⟩ | ⟨rfl, hramp⟩
    · refine ⟨onlyAt_cancelRaise, ?_⟩
      rw [hx] at hcancel
      show (s.cancelRaise k).shedBase k = max (s.floorOf k) ((s.leaseOf k).elim 0 Lease.draw)
      rw [shedBase_of_plain hcancel rfl, onlyAt_cancelRaise.floorOf, hl]; rfl
    · obtain ⟨d, hlease⟩ := leaseOf_recallOn (o := .shed) hcancel hlt fun m' w g d hx => hold m' w g d (by
        rcases hx' : l.trans with _ | _ | _ <;> rw [hx'] at hx
        · exact hx
        · cases hx
        · exact hx)
      have honly : State.OnlyAt k s ((s.cancelRaise k).recallOn k m .shed) := onlyAt_cancelRaise.trans onlyAt_recallOn
      have hdraw : (s.cancelRaise k).drawOf k m = s.drawOf k m := drawOf_congr (by unfold State.sessOf; rw [sess_cancelRaise]) m
      show State.OnlyAt k s (s.recall k m .shed) ∧ (s.recall k m .shed).shedBase k = max (s.floorOf k) (s.drawOf k m)
      rw [recall_of_on hon]
      exact ⟨honly, by rw [shedBase_of_lower hlease rfl, honly.floorOf, hdraw]⟩
    · have hdropped := (dropped_dropLease hl).post (c := .cut) (o := some k) (r := .shed) (v := s.grantedTier k)
      have hnone := (hdropped.settlesRecalled (o := .shed) (w := s.grantedTier k)).leaseOf
      have honly := hdropped.onlyAt_settleRecalled (o := .shed) (w := s.grantedTier k)
      show State.OnlyAt k s (s.abortRamp k) ∧ (s.abortRamp k).shedBase k = s.floorOf k
      rw [abortRamp_of_ramp hramp]
      exact ⟨honly, by rw [shedBase_of_none hnone, honly.floorOf]⟩

/-! ### The plan carried out -/

theorem bases_eq_sumSlots : s.bases = (sumSlots s.shedBase : Int) := (sumSlots_cast _).symm

/-- A choice carried out lowers the bases by what it releases (R69). -/
theorem bases_carryOut (h : s.SlotFit k) (hc : c ∈ s.choices k) : (s.carryOut (k, c)).bases = s.bases - s.release k c := by
  obtain ⟨honly, hbase⟩ := carryOut_leaves h hc
  have hothers : ∀ j, j ≠ k → (s.carryOut (k, c)).shedBase j = s.shedBase j := fun j hj =>
    shedBase_same (honly.others j hj) honly.cmd
  have hsum := sumSlots_update hothers
  rw [bases_eq_sumSlots, bases_eq_sumSlots, release_eq]
  omega

/-- A plan carried out lowers the bases by all that it releases (R69). -/
theorem bases_carryOut_plan {plan : List (Slot × ShedChoice)} (hn : (plan.map Prod.fst).Nodup)
    (hc : ∀ p ∈ plan, s.SlotFit p.1 ∧ p.2 ∈ s.choices p.1) :
    (plan.foldl State.carryOut s).bases = s.bases - s.releases plan ∧ (plan.foldl State.carryOut s).cmd = s.cmd := by
  induction plan generalizing s with
  | nil => exact ⟨(Int.sub_zero _).symm, rfl⟩
  | cons p ps ih =>
    obtain ⟨⟨hfit, hmem⟩, hps⟩ := List.forall_mem_cons.1 hc
    obtain ⟨hfresh, hnps⟩ := List.nodup_cons.1 hn
    have honly := (carryOut_leaves hfit hmem).1
    have hcmd := honly.cmd
    have hsame : ∀ q ∈ ps, s.SameSlot (s.carryOut p) q.1 := fun q hq =>
      honly.others q.1 fun he => hfresh (he ▸ List.mem_map_of_mem hq)
    obtain ⟨hbases, hcmds⟩ := ih (s := s.carryOut p) hnps fun q hq => by
      obtain ⟨hfit', hmem'⟩ := hps q hq
      exact ⟨hfit'.congr (hsame q hq).leaseOf (hsame q hq).1, by rw [choices_same (hsame q hq) hcmd]; exact hmem'⟩
    have hrest : (s.carryOut p).releases ps = s.releases ps := congrArg List.sum (List.map_congr_left fun q hq => by
      rw [release_same (hsame q hq) hcmd])
    refine ⟨?_, hcmds.trans hcmd⟩
    rw [List.foldl_cons, hbases, bases_carryOut hfit hmem, hrest, releases_cons]
    omega

/-! ### SET_BUDGET -/

theorem available_of_cmd (hc : t.cmd = s.cmd) : t.available = s.available := by
  unfold State.available State.settings; rw [hc]

/-- What a shedding plan reads, and committed, stand in `t` as in `s`. -/
structure State.SameFunds (s t : State) : Prop where
  cmd : t.cmd = s.cmd
  leases : t.alloc.leases = s.alloc.leases
  sess : t.sess = s.sess
  committed : t.alloc.committed = s.alloc.committed

namespace State.SameFunds

theorem trans (h : s.SameFunds t) (g : t.SameFunds u) : s.SameFunds u :=
  ⟨g.cmd.trans h.cmd, g.leases.trans h.leases, g.sess.trans h.sess, g.committed.trans h.committed⟩

theorem leaseOf (h : s.SameFunds t) (j : Slot) : t.leaseOf j = s.leaseOf j := congrArg (PerSlot.get · j) h.leases

theorem sessOf (h : s.SameFunds t) (j : Slot) : t.sessOf j = s.sessOf j := congrArg (PerSlot.get · j) h.sess

theorem available (h : s.SameFunds t) : t.available = s.available := available_of_cmd h.cmd

theorem floorSum (h : s.SameFunds t) : t.floorSum = s.floorSum := by
  unfold State.floorSum; rw [funext (floorOf_of_cmd h.cmd)]

theorem slotFit (h : s.SameFunds t) (hfit : s.SlotFit k) : t.SlotFit k := hfit.congr (h.leaseOf k) (h.sessOf k)

theorem committedLaw (h : s.SameFunds t) (hc : s.CommittedLaw) : t.CommittedLaw :=
  hc.congr h.committed (commitment_congr (congrArg CommandUnit.policy h.cmd) h.leases)

end State.SameFunds

theorem sameFunds_recheckSlot {bad : State → Slot → Nat → Bool} {r : Reason} : s.SameFunds (s.recheckSlot bad r k) := by
  unfold State.recheckSlot
  repeat' split
  · exact ⟨rfl, rfl, rfl, rfl⟩
  · have hm := entryMoved_denyEntry (s := s) (k := k) (r := r)
    exact ⟨hm.only.cmd, hm.leases, hm.sess, hm.committed⟩
  · exact ⟨rfl, rfl, rfl, rfl⟩

theorem sameFunds_recheckFits : s.SameFunds s.recheckFits := by
  unfold State.recheckFits
  generalize s.alloc.queue.map Entry.slot = ks
  induction ks generalizing s with
  | nil => exact ⟨rfl, rfl, rfl, rfl⟩
  | cons k ks ih => exact sameFunds_recheckSlot.trans ih

theorem sameFunds_abandonReclaim : s.SameFunds s.abandonReclaim := by
  obtain ⟨hsess, _, _, _, hleases, hcommitted, _⟩ := endReclaim_frame (s := s) (n := 2)
  exact ⟨(onlyAt_endReclaim (k := 0)).cmd, hleases, hsess, hcommitted⟩

/-- The test for shedding leaves committed within available, or it carries out the plan of a state with the same funds (R66). -/
theorem testShedding_cases (s : State) :
    (s.SameFunds s.testShedding ∧ s.alloc.committed ≤ s.available) ∨
    ∃ v, s.SameFunds v ∧ s.testShedding = v.shedPlan.foldl State.carryOut v := by
  have hfunds := sameFunds_abandonReclaim (s := s)
  unfold State.testShedding
  split
  · exact .inl ⟨⟨rfl, rfl, rfl, rfl⟩, by omega⟩
  · dsimp only
    split
    · rename_i hle
      rw [hfunds.committed, hfunds.available] at hle
      exact .inl ⟨hfunds.trans ⟨rfl, rfl, rfl, rfl⟩, hle⟩
    · refine .inr ⟨_, ?_, rfl⟩
      split
      · exact hfunds
      · exact hfunds.trans ⟨rfl, rfl, rfl, rfl⟩

/-- A happening that ends in SHEDDING ends with committed above available, and neither lease nor limit has moved at its end (R71). -/
theorem finish_of_shedding (h : s.finish.alloc.state = .shedding) : s.available < s.alloc.committed ∧
    s.finish.alloc.leases = s.alloc.leases ∧ s.finish.cmd = s.cmd := by
  have hstate : s.testShedEnd.alloc.state = .shedding := by
    rw [← h]; unfold State.finish; rw [alloc_handOn.1, state_passes]
  have hnot : ¬ (s.alloc.state = .shedding ∧ s.alloc.committed ≤ s.available) := fun hc => by
    unfold State.testShedEnd at hstate
    rw [if_pos hc] at hstate
    dsimp only at hstate
    split at hstate <;> cases hstate
  rw [testShedEnd_of_not hnot] at hstate
  rw [finish_of_idle hnot fun hr => by rw [hr] at hstate; cases hstate]
  obtain ⟨hhost, _, _, halloc, _⟩ := handOn_frame (s := s.withPassDue false)
  exact ⟨Nat.lt_of_not_le fun hle => hnot ⟨hstate, hle⟩, (congrArg Allocator.leases halloc).trans rfl, hhost.2.1⟩

/-- The bases are read from policy and leases. -/
theorem bases_congr (hp : t.cmd.policy = s.cmd.policy) (hl : t.alloc.leases = s.alloc.leases) : t.bases = s.bases := by
  have hbase : t.shedBase = s.shedBase := by
    funext k
    unfold State.shedBase State.floorOf State.policyOf State.leaseOf
    rw [commitment_congr hp hl, hp, hl]
  unfold State.bases; rw [hbase]

theorem bases_complete (r : CmdResult) : (s.complete r).bases = s.bases := bases_congr rfl rfl

theorem available_complete (r : CmdResult) : (s.complete r).available = s.available := rfl

theorem bases_wantPass (b : Bool) : (s.wantPass b).bases = s.bases := bases_congr rfl rfl

theorem available_wantPass (b : Bool) : (s.wantPass b).available = s.available := rfl

/-- The test for shedding covers the excess, or there is none (R66 to R68). -/
theorem bases_testShedding (hfit : ∀ k, s.SlotFit k) (hc : s.CommittedLaw) (hfloors : s.floorSum ≤ s.available)
    (hover : s.testShedding.available < s.testShedding.alloc.committed) :
    s.testShedding.bases ≤ s.testShedding.available := by
  rcases testShedding_cases s with ⟨hfunds, hle⟩ | ⟨v, hfunds, heq⟩
  · rw [hfunds.committed, hfunds.available] at hover
    omega
  · have hfit' := fun k => hfunds.slotFit (hfit k)
    have hc' := hfunds.committedLaw hc
    obtain ⟨hslots, hmem, hneed⟩ := shedPlan_covers hfit' hc' (by rw [hfunds.floorSum, hfunds.available]; exact hfloors)
    obtain ⟨hbases, hcmd⟩ := bases_carryOut_plan hslots fun p hp => ⟨hfit' p.1, hmem p hp⟩
    rw [shedNeed_eq hc'] at hneed
    rw [heq, hbases, available_of_cmd hcmd]
    omega

/-- The new limits in force and the queue checked again: what the test for shedding is made on (R28, R162). -/
def State.budgeted (limit reserve : Nat) (s : State) : State :=
  (s.modSettings (fun x => { x with supplyLimit := limit, reserve := reserve })).recheckFits

theorem applyBudget_eq (limit reserve : Nat) (s : State) : s.applyBudget limit reserve =
    (((s.budgeted limit reserve).testShedding).wantPass (decide (s.available < limit - reserve))).finish := rfl

/-- An accepted SET_BUDGET that ends in SHEDDING has covered the excess (R2, R66 to R68). -/
theorem bases_applyBudget {limit reserve : Nat} (hs : s.Lawful) (hfloors : s.floorSum ≤ limit - reserve)
    (h : (s.applyBudget limit reserve).alloc.state = .shedding) :
    (s.applyBudget limit reserve).bases ≤ (s.applyBudget limit reserve).available := by
  rw [applyBudget_eq] at h ⊢
  obtain ⟨hover, hleases, hcmd⟩ := finish_of_shedding h
  have hfunds : State.SameFunds (s.modSettings _) (s.budgeted limit reserve) := sameFunds_recheckFits
  have hfit : ∀ k, (s.budgeted limit reserve).SlotFit k := fun k =>
    hfunds.slotFit (slotFit_of_laws (s := s.modSettings _) hs.coherent hs.tier k)
  rw [bases_congr (congrArg CommandUnit.policy hcmd) hleases, available_of_cmd hcmd, bases_wantPass,
    available_wantPass]
  rw [available_wantPass, State.wantPass_alloc_committed] at hover
  exact bases_testShedding hfit (hfunds.committedLaw hs.committed) (by rw [hfunds.floorSum, hfunds.available]; exact hfloors) hover

theorem exec_setBudget {limit reserve : Word} (hd : s.store.startDone = true) (hi : s.store.state = .idle)
    (hlimit : limit.toNat ≤ 32767) (hreserve : reserve.toNat ≤ limit.toNat) (hfloors : s.floorSum ≤ limit.toNat - reserve.toNat) :
    exec (.setBudget limit reserve) s = .next ((s.applyBudget limit.toNat reserve.toNat).complete .ok) := by
  have hbusy : s.busy = false := by unfold State.busy; rw [hi]; rfl
  refine congrArg Host.Outcome.next ?_
  unfold State.whenLoaded State.command State.setBudget
  rw [if_pos hd, hbusy, if_neg Bool.false_ne_true, if_neg (by omega), if_neg (by omega)]

/-- Settles O40: the plan's releases cover the excess, and carried out they come off what the slots will leave committed. -/
theorem aSheddingPlanCoversTheExcess : Obligations.ASheddingPlanCoversTheExcess := by
  unfold Obligations.ASheddingPlanCoversTheExcess
  intro limit reserve s t hs hd hi hlimit hreserve hfloors hexec hshed
  have hcounted : t.Counted := deeds_keep_counted
    (exec_happening (by simp) (by simp) hexec).deeds ⟨hs.committed, hs.earmark, hs.reclaim⟩
  rw [exec_setBudget hd hi hlimit hreserve hfloors] at hexec
  have hcovered : t.bases ≤ t.available := by
    cases hexec
    rw [State.complete_alloc] at hshed
    rw [bases_complete, available_complete]
    exact bases_applyBudget hs hfloors hshed
  rw [bases_eq hcounted.committed] at hcovered
  convert hcovered using 5 with k
  unfold State.pendingRelease
  rcases t.leaseOf k with _ | ⟨_, _, _, _, _ | _ | _⟩ <;> rfl

end Sys2Proof.Machine
end

section
/-! PROOFS. What a PRESENT input does to its slot, and the messages that a slot's state does not take (R75, R77, R81, R83). -/

namespace Sys2Proof.Machine

variable {s : State} {k : Slot}

/-! ### PRESENT -/

theorem presenceOn_eq (st : SessState) (a : Bool) : presenceOn st a =
    if st = .vacant then (if a then .toInsertion 0 else .idle) else (if a then .idle else .toRemoval 0) := by
  cases st <;> rfl

/-- A change of level restarts the presence timer for the level the input has taken (R75, R76). -/
theorem exec_presentChange {a : Bool} (hd : s.store.startDone = true) (h : s.present.get k ≠ a) : exec (.presentChange k a) s =
    .next (({ s with present := s.present.set k a }).modSess k (fun x => { x with presence := presenceOn x.state a })) := by
  refine congrArg Host.Outcome.next ?_
  unfold State.presentChange
  rw [if_neg h]
  exact if_pos hd

/-- A VACANT slot whose timer runs toward insertion is inserted (R75). -/
theorem exec_insertion {n : Nat} (hd : s.store.startDone = true) (hv : (s.sessOf k).state = .vacant)
    (hp : (s.sessOf k).presence = .toInsertion n) : exec (.insertion k) s =
    .next ((s.modSess k (fun x => { x with presence := .idle })).enter k (s.unopened k)) := by
  refine congrArg Host.Outcome.next ?_
  unfold State.whenLoaded State.insert
  rw [if_pos hd, if_pos ⟨hv, by rw [hp]; rfl⟩]

theorem unopened_of_enabled (h : (s.policyOf k).enabled = true) : s.unopened k = .listening := if_pos h

theorem unopened_of_disabled (h : (s.policyOf k).enabled = false) : s.unopened k = .barred := if_neg (by rw [h]; decide)

theorem auxOn_unopened : (s.unopened k).auxOn = (s.policyOf k).enabled := by
  unfold State.unopened
  cases (s.policyOf k).enabled <;> rfl

/-- Settles O8: the change of level and the insertion, each by what its command comes to. -/
theorem anEnabledSlotIsInsertedListening : Obligations.AnEnabledSlotIsInsertedListening := by
  unfold Obligations.AnEnabledSlotIsInsertedListening
  intro k s hd
  refine ⟨fun active hne => ?_, fun n hv hp => ?_⟩
  · rw [exec_presentChange hd hne, ← presenceOn_eq]
    rfl
  · have honly : State.OnlyAt k s ((s.modSess k (fun x => { x with presence := .idle })).enter k (s.unopened k)) :=
      onlyAt_modSess.trans onlyAt_enter
    refine ⟨_, exec_insertion hd hv hp, ?_, ?_, fun hen => ?_, fun hen => ?_, honly.host, honly.others, rfl, rfl, rfl, rfl, rfl, rfl⟩
    · rw [sessOf_enter, State.sessOf_modSess, if_pos rfl]
      rfl
    · rw [rampOf_enter, auxOn_unopened]
      rfl
    · rw [lineOf_enter, unopened_of_enabled hen]
      rfl
    · rw [lineOf_enter, unopened_of_disabled hen]
      exact ⟨rfl, rfl⟩

/-! ### Messages out of place -/

theorem dispatch_of_tag {g : Byte} {f : State → State} (h : g = s.frameTag k) : s.dispatch k g f = f s := if_pos h

theorem dispatch_of_other_tag {g : Byte} {f : State → State} (h : g ≠ s.frameTag k) : s.dispatch k g f = s := if_neg h

/-- `f` takes a message of slot `k` as R83 has it where the session's state has no place for it: nothing follows in VACANT and BARRED,
nor in STANDBY where `ignored`, and the protocol errors rise in the states that count it. -/
structure CountsMisplaced (k : Slot) (ignored : Prop) (f : State → State) : Prop where
  absent : ∀ s : State, (s.sessOf k).state = .vacant ∨ (s.sessOf k).state = .barred → f s = s
  standby : ∀ s : State, (s.sessOf k).state = .standby → ignored → f s = s
  counted : ∀ s : State, (s.sessOf k).state = .listening ∨ (s.sessOf k).state = .rampWait ∨ (s.sessOf k).state = .ramping ∨
    (s.sessOf k).state = .rejected ∨ (s.sessOf k).state = .faulted → f s = s.countError k

theorem hearClaim_countsMisplaced (w l : Nat) : CountsMisplaced k False (State.hearClaim k w l) where
  absent s h := by unfold State.hearClaim; rcases h with h | h <;> rw [h]
  standby s _ h := h.elim
  counted s h := by unfold State.hearClaim; rcases h with h | h | h | h | h <;> rw [h]

theorem hearYield_countsMisplaced (g : Byte) (n : Nat) : CountsMisplaced k True (State.hearYield k g n) where
  absent s h := by unfold State.hearYield; rcases h with h | h <;> rw [h]
  standby s h _ := by unfold State.hearYield; rw [h]
  counted s h := by unfold State.hearYield; rcases h with h | h | h | h | h <;> rw [h]

theorem hearReady_countsMisplaced (g : Byte) (n : Nat) : CountsMisplaced k True (State.hearReady k g n) where
  absent s h := by unfold State.hearReady; rcases h with h | h <;> rw [h]
  standby s h _ := by unfold State.hearReady; rw [h]
  counted s h := by unfold State.hearReady; rcases h with h | h | h | h | h <;> rw [h]

theorem hearFault_countsMisplaced (g : Byte) (n : Nat) : CountsMisplaced k True (State.hearFault k g n) where
  absent s h := by unfold State.hearFault; rcases h with h | h <;> rw [h]
  standby s h _ := by unfold State.hearFault; rw [h]
  counted s h := by unfold State.hearFault; rcases h with h | h | h | h | h <;> rw [h]

/-- What a message other than HELLO and NONE comes to once the load is complete: it is dispatched to what takes it (R81). -/
theorem exec_message {g a b : Byte} {c : Instr} (hd : s.store.startDone = true)
    (hc : c = .claim k g a b ∨ c = .yieldTier k g a ∨ c = .ready k g a ∨ c = .moduleFault k g a) :
    ∃ f, exec c s = .next ((s.taken c).dispatch k g f) ∧ CountsMisplaced k (c ≠ .claim k g a b) f := by
  have hloaded : ∀ f : State → State, (s.taken c).whenLoaded f = f (s.taken c) := fun _ => if_pos hd
  rcases hc with rfl | rfl | rfl | rfl
  · refine ⟨_, congrArg Host.Outcome.next (hloaded _), ?_⟩
    rw [ne_self_iff_false]
    exact hearClaim_countsMisplaced _ _
  · refine ⟨_, congrArg Host.Outcome.next (hloaded _), ?_⟩
    rw [eq_true (show Instr.yieldTier k g a ≠ .claim k g a b from nofun)]
    exact hearYield_countsMisplaced _ _
  · refine ⟨_, congrArg Host.Outcome.next (hloaded _), ?_⟩
    rw [eq_true (show Instr.ready k g a ≠ .claim k g a b from nofun)]
    exact hearReady_countsMisplaced _ _
  · refine ⟨_, congrArg Host.Outcome.next (hloaded _), ?_⟩
    rw [eq_true (show Instr.moduleFault k g a ≠ .claim k g a b from nofun)]
    exact hearFault_countsMisplaced _ _

/-- A HELLO is taken with any tag (R81). -/
theorem exec_hello {g : Byte} {kind : Word} {serial : BitVec 32} {flags pref : Byte} {draws : List Word}
    (hd : s.store.startDone = true) : exec (.hello k g kind serial flags pref draws) s =
    .next ((s.taken (.hello k g kind serial flags pref draws)).hearHello k ⟨kind, serial, flags, pref, draws⟩) :=
  congrArg Host.Outcome.next (if_pos hd)

theorem hearHello_of_closed {d : Descriptor} (h : (s.sessOf k).state = .rejected ∨ (s.sessOf k).state = .faulted) :
    s.hearHello k d = s.countError k := by
  unfold State.hearHello
  rcases h with h | h <;> rw [h]

theorem hearHello_of_absent {d : Descriptor} (h : (s.sessOf k).state = .vacant ∨ (s.sessOf k).state = .barred) :
    s.hearHello k d = s := by
  unfold State.hearHello
  rcases h with h | h <;> rw [h]

/-- Settles O35: the tag decides first, then the state of the session by what takes the message. -/
theorem messagesOutOfPlaceAreIgnoredOrCounted : Obligations.MessagesOutOfPlaceAreIgnoredOrCounted := by
  unfold Obligations.MessagesOutOfPlaceAreIgnoredOrCounted
  intro k g a b s c hd
  refine ⟨fun hc => by subst hc; rfl, fun hc => ?_, fun kind serial flags pref draws hc => ?_⟩
  · obtain ⟨f, hexec, hf⟩ := exec_message hd hc
    rw [hexec]
    refine ⟨fun hg => ?_, fun hg => ⟨fun h => ?_, fun h hclaim => ?_, fun h => ?_⟩⟩
    · rw [dispatch_of_other_tag (s := s.taken c) hg]; rfl
    · rw [dispatch_of_tag (s := s.taken c) hg, hf.absent (s.taken c) h]; rfl
    · rw [dispatch_of_tag (s := s.taken c) hg, hf.standby (s.taken c) h hclaim]; rfl
    · rw [dispatch_of_tag (s := s.taken c) hg, hf.counted (s.taken c) h]; rfl
  · subst hc
    rw [exec_hello hd]
    refine ⟨fun h => ?_, fun h => ?_⟩
    · rw [hearHello_of_closed (s := s.taken _) h]; rfl
    · rw [hearHello_of_absent (s := s.taken _) h]; rfl

end Sys2Proof.Machine
end

section
/-! PROOFS. HELLO in LISTENING: the two checks, the refusal, and the session that opens with its BRINGUP entry (R32, R78, R80). -/

namespace Sys2Proof.Machine

variable {s : State} {k : Slot} {d : Descriptor} {r : Reason}

/-! ### The checks -/

theorem ascending_iff {ws : List Word} : ascending ws = true ↔ ws.Pairwise (fun a b => a.toNat < b.toNat) := by
  refine ⟨fun h => List.pairwise_map.1 (ascending_pairwise h), fun h => ?_⟩
  induction ws with
  | nil => rfl
  | cons a ws ih =>
    cases ws with
    | nil => rfl
    | cons b rest =>
      obtain ⟨hhead, htail⟩ := List.pairwise_cons.1 h
      simp only [ascending, Bool.and_eq_true, decide_eq_true_eq]
      exact ⟨hhead b List.mem_cons_self, ih htail⟩

/-- Check 1 of a HELLO, spelled out (R78). -/
theorem Descriptor.listOk_iff : d.listOk = true ↔ (1 ≤ d.draws.length ∧ d.draws.length ≤ 6) ∧
    (∀ w ∈ d.draws, 1 ≤ w.toNat ∧ w.toNat ≤ 4095) ∧ d.draws.Pairwise (fun a b => a.toNat < b.toNat) ∧
    d.preferred.toNat ≤ d.draws.length ∧ d.flags = 0 := by
  unfold Descriptor.listOk Descriptor.tiers
  simp only [Bool.and_eq_true, decide_eq_true_eq, List.all_eq_true, ascending_iff]
  tauto

theorem Descriptor.drawOf_one_of_head {w : Word} (h : d.draws.head? = some w) : d.drawOf 1 = w.toNat := by
  rw [List.head?_eq_getElem?] at h
  show (d.draws[0]?.getD 0).toNat = _
  rw [h]
  rfl

theorem helloFault_badList {cap : Nat} (h : d.listOk = false) : helloFault cap d = some .badList := if_pos h

theorem helloFault_overCap {cap : Nat} (hok : d.listOk = true) (h : cap < d.drawOf 1) : helloFault cap d = some .overCap :=
  (if_neg (by rw [hok]; decide)).trans (if_pos h)

theorem helloFault_passed {cap : Nat} (hok : d.listOk = true) (h : d.drawOf 1 ≤ cap) : helloFault cap d = none :=
  (if_neg (by rw [hok]; decide)).trans (if_neg (Nat.not_lt.2 h))

theorem validateHello_refused (h : helloFault (s.policyOf k).cap d = some r) : s.validateHello k d = s.refuseHello k d r := by
  unfold State.validateHello; rw [h]

theorem validateHello_passed (h : helloFault (s.policyOf k).cap d = none) : s.validateHello k d = s.openSession k d := by
  unfold State.validateHello; rw [h]

theorem hearHello_of_listening (h : (s.sessOf k).state = .listening) :
    s.hearHello k d = ((s.validateHello k d).barStandby k).finish := by
  unfold State.hearHello; rw [h]

theorem barStandby_of_enabled (h : (s.policyOf k).enabled = true) : s.barStandby k = s :=
  if_neg fun ⟨_, hdis⟩ => by rw [h] at hdis; cases hdis

theorem barStandby_of_not_standby (h : (s.sessOf k).state ≠ .standby) : s.barStandby k = s := if_neg fun ⟨hst, _⟩ => h hst

/-! ### The refusal -/

/-- A message queued in the session channel leaves the other two channels, and no poll timer starts (R99, R100). -/
theorem Line.queue_session (m : DownMsg) (x : Line) : (x.queue .session m).outSession = some m ∧
    (x.queue .session m).outRecall = x.outRecall ∧ (x.queue .session m).outClaim = x.outClaim ∧
    (x.poll = none → (x.queue .session m).poll = none) := by
  unfold Line.queue Line.kick
  split
  · exact ⟨rfl, rfl, rfl, id⟩
  · exact ⟨rfl, rfl, rfl, fun _ => rfl⟩

theorem onlyAt_refuseHello : State.OnlyAt k s (s.refuseHello k d r) :=
  ((onlyAt_modSess.trans onlyAt_enter).trans onlyAt_modLine).trans onlyAt_post

theorem sessOf_refuseHello : (s.refuseHello k d r).sessOf k =
    { s.sessOf k with state := .rejected, refusal := r, desc := some d } := by
  unfold State.refuseHello
  rw [State.sessOf_post, State.sessOf_modLine, sessOf_enter, State.sessOf_modSess, if_pos rfl]

theorem lineOf_refuseHello : (s.refuseHello k d r).lineOf k =
    (Line.enter .rejected s.settings.pollPeriod (s.lineOf k)).queue .session (.refuse r) := by
  unfold State.refuseHello
  rw [State.lineOf_post, State.lineOf_modLine, if_pos rfl, lineOf_enter]
  rfl

theorem rampOf_refuseHello : (s.refuseHello k d r).rampOf k = { s.rampOf k with aux := true } := by
  unfold State.refuseHello
  rw [State.rampOf_post, State.rampOf_modLine, rampOf_enter]
  rfl

theorem mon_enter {st : SessState} : (s.enter k st).mon = s.mon := rfl

theorem path_enter {st : SessState} :
    (s.enter k st).power.queue = s.power.queue ∧ (s.enter k st).power.holder = s.power.holder := ⟨rfl, rfl⟩

/-- The refusal of a HELLO moves no budget quantity, and posts one notice (R78). -/
theorem refuseHello_parts : (s.refuseHello k d r).alloc = s.alloc ∧ (s.refuseHello k d r).mon = s.mon ∧
    (s.refuseHello k d r).power.queue = s.power.queue ∧ (s.refuseHello k d r).power.holder = s.power.holder ∧
    (s.refuseHello k d r).notices = s.notices.take .sessionRefused (some k) r false d.kind.toNat := by
  obtain ⟨hqueue, hholder⟩ := path_enter (s := s.modSess k (fun x => { x with refusal := r, desc := some d })) (k := k)
    (st := .rejected)
  unfold State.refuseHello
  rw [State.post_alloc, State.post_mon, State.post_power, State.post_notices, State.modLine_alloc, State.modLine_mon,
    State.modLine_power, State.modLine_notices, alloc_enter, mon_enter, notices_enter, hqueue, hholder]
  exact ⟨rfl, rfl, rfl, rfl, rfl⟩

/-- Settles O28: the first check that fails gives the reason, and the refusal is the model's. -/
theorem aBadHelloIsRefused : Obligations.ABadHelloIsRefused := by
  unfold Obligations.ABadHelloIsRefused
  intro k g kind serial flags pref draws s r hd hlisten hbad
  dsimp only
  have hfault : helloFault (s.policyOf k).cap ⟨kind, serial, flags, pref, draws⟩ = some r := by
    split at hbad
    · rename_i hlist
      subst hbad
      refine helloFault_badList (Bool.eq_false_iff.2 fun hok => ?_)
      obtain ⟨hlength, hrange, hascend, hpref, hflags⟩ := Descriptor.listOk_iff.1 hok
      rcases hlist with h | ⟨w, hw, h⟩ | h | h | h
      · exact h hlength
      · exact h (hrange w hw)
      · exact h hascend
      · exact absurd hpref (Nat.not_le.2 h)
      · exact h hflags
    · rename_i hlist
      push Not at hlist
      obtain ⟨hlength, hrange, hascend, hpref, hflags⟩ := hlist
      obtain ⟨⟨w, hw, hcap⟩, rfl⟩ := hbad
      refine helloFault_overCap (Descriptor.listOk_iff.2 ⟨hlength, hrange, hascend, hpref, hflags⟩) ?_
      rwa [Descriptor.drawOf_one_of_head hw]
  generalize hc : Instr.hello k g kind serial flags pref draws = c
  have honly := onlyAt_refuseHello (s := s.taken c) (k := k) (d := ⟨kind, serial, flags, pref, draws⟩) (r := r)
  obtain ⟨hsession, _, _, hpoll⟩ := Line.queue_session (.refuse r)
    (Line.enter .rejected s.settings.pollPeriod (s.lineOf k))
  obtain ⟨halloc, hmon, hqueue, hholder, hnotices⟩ :=
    refuseHello_parts (s := s.taken c) (k := k) (d := ⟨kind, serial, flags, pref, draws⟩) (r := r)
  refine ⟨(s.taken c).refuseHello k ⟨kind, serial, flags, pref, draws⟩ r, ?_, honly.raised, honly.host, honly.others, halloc, hmon,
    hqueue, hholder, sessOf_refuseHello, ?_, ?_, ?_, hnotices⟩
  · rw [← hc, exec_hello hd, hc, hearHello_of_listening (s := s.taken c) hlisten, validateHello_refused (s := s.taken c) hfault,
      barStandby_of_not_standby (by rw [sessOf_refuseHello]; nofun)]
  · rw [lineOf_refuseHello]; exact hsession
  · rw [lineOf_refuseHello]; exact hpoll rfl
  · rw [rampOf_refuseHello]

/-! ### The session opens -/

/-- A session has just opened with descriptor `d`, before its BRINGUP entry (R80). -/
def State.greeted (k : Slot) (d : Descriptor) (s : State) : State :=
  let auto := decide ((s.policyOf k).startMode = .auto)
  let tag := nextTag (s.sessOf k).tag
  (((s.modSess k (fun x => { x with tag := tag, desc := some d, lastEnd := .none, admitFlag := auto })).enter k .standby).modLine k
    (Line.queue .session (.welcome tag))).post .sessionOpen (some k) (if auto then .bringup else .none) tag.toNat

theorem openSession_of_auto (h : (s.policyOf k).startMode = .auto) : s.openSession k d = (s.greeted k d).bringup k :=
  if_pos (decide_eq_true h)

theorem openSession_of_host (h : (s.policyOf k).startMode ≠ .auto) : s.openSession k d = s.greeted k d :=
  if_neg (by rw [decide_eq_false h]; decide)

theorem onlyAt_greeted : State.OnlyAt k s (s.greeted k d) :=
  ((onlyAt_modSess.trans onlyAt_enter).trans onlyAt_modLine).trans onlyAt_post

theorem sessOf_greeted : (s.greeted k d).sessOf k = { s.sessOf k with
    state := .standby, tag := nextTag (s.sessOf k).tag, admitFlag := decide ((s.policyOf k).startMode = .auto), desc := some d,
    lastEnd := .none } := by
  unfold State.greeted
  rw [State.sessOf_post, State.sessOf_modLine, sessOf_enter, State.sessOf_modSess, if_pos rfl]

theorem lineOf_greeted : ((s.greeted k d).lineOf k).outSession = some (.welcome (nextTag (s.sessOf k).tag)) ∧
    ((s.greeted k d).lineOf k).outRecall = (s.lineOf k).outRecall ∧
    ((s.greeted k d).lineOf k).outClaim = (s.lineOf k).outClaim := by
  have hline : (s.greeted k d).lineOf k = (s.lineOf k).queue .session (.welcome (nextTag (s.sessOf k).tag)) := by
    unfold State.greeted
    rw [State.lineOf_post, State.lineOf_modLine, if_pos rfl, lineOf_enter]
    rfl
  obtain ⟨hsession, hrecall, hclaim, _⟩ := Line.queue_session (.welcome (nextTag (s.sessOf k).tag)) (s.lineOf k)
  rw [hline]
  exact ⟨hsession, hrecall, hclaim⟩

theorem aux_greeted : ((s.greeted k d).rampOf k).aux = true := by
  unfold State.greeted
  rw [State.rampOf_post, State.rampOf_modLine, rampOf_enter]
  rfl

/-- The opening of a session moves no budget quantity, and SESSION_OPEN is its notice (R80). -/
theorem greeted_parts : (s.greeted k d).alloc = s.alloc ∧ (s.greeted k d).notices = s.notices.take .sessionOpen (some k)
    (if decide ((s.policyOf k).startMode = .auto) = true then .bringup else .none) false (nextTag (s.sessOf k).tag).toNat := by
  unfold State.greeted
  dsimp only
  rw [State.post_alloc, State.post_notices, State.modLine_alloc, State.modLine_notices, alloc_enter, notices_enter]
  exact ⟨rfl, rfl⟩

theorem Descriptor.preferredTier_range (h : d.listOk = true) : 1 ≤ d.preferredTier ∧ d.preferredTier ≤ d.tiers := by
  obtain ⟨⟨hlength, _⟩, _, _, hpref, _⟩ := Descriptor.listOk_iff.1 h
  unfold Descriptor.preferredTier
  split
  · exact ⟨hlength, le_rfl⟩
  · rename_i hne
    exact ⟨Nat.one_le_iff_ne_zero.2 fun h0 => hne (BitVec.eq_of_toNat_eq h0), hpref⟩

theorem neverFits_iff {n : Nat} : s.neverFits k n = true ↔
    s.available + s.floorOf k < max (s.floorOf k) (s.drawOf k n) + s.floorSum := decide_eq_true_iff

/-- Of the checks of a BRINGUP only check 6 can fail where the HELLO has passed its own (R27, R32). -/
theorem admission_bringup (hl : s.leaseOf k = none) (ha : (s.sessOf k).admitFlag = true) (hdesc : (s.sessOf k).desc = some d)
    (hok : d.listOk = true) (hcap : d.drawOf 1 ≤ (s.policyOf k).cap) :
    s.admission k d.preferredTier 1 = if s.neverFits k 1 = true then some .neverFits else none := by
  obtain ⟨hone, htiers⟩ := Descriptor.preferredTier_range hok
  have hcount : s.tiersOf k = d.tiers := by unfold State.tiersOf; rw [hdesc]
  have hdraw : s.drawOf k 1 = d.drawOf 1 := by unfold State.drawOf; rw [hdesc]
  have hraise : s.raising k = false := by unfold State.raising; rw [hl]
  have htier : s.claimTier k = 0 := by unfold State.claimTier; rw [hl]
  have hover : s.overCap k 1 = false := decide_eq_false (by rw [hdraw]; omega)
  unfold State.admission
  rw [hcount, ha, hraise, htier, hover, if_neg (by omega), if_neg (by decide), if_neg (by decide), if_neg (by omega), if_neg (by decide)]

theorem bringup_of_desc (h : (s.sessOf k).desc = some d) : s.bringup k = s.takeClaim k .bringup d.preferredTier 1 := by
  unfold State.bringup; rw [h]

theorem Line.queueClaim_outSession (m : DownMsg) (x : Line) : (x.queueClaim m).outSession = x.outSession := by
  have hqueue : ∀ m', (x.queue .claim m').outSession = x.outSession := fun m' => by
    unfold Line.queue Line.kick; split <;> rfl
  unfold Line.queueClaim; split
  · exact hqueue _
  · rfl
  · exact hqueue _

/-- A claim neither moves the budget nor speaks in the channels of session and recall, whether it is refused or taken. -/
theorem takeClaim_parts {o : EntryOrigin} {w n : Nat} (hhost : o ≠ .host) (hrestore : o ≠ .restore) :
    State.OnlyAt k s (s.takeClaim k o w n) ∧ (s.takeClaim k o w n).sess = s.sess ∧ (s.takeClaim k o w n).power = s.power ∧
    (s.takeClaim k o w n).alloc.leases = s.alloc.leases ∧ (s.takeClaim k o w n).alloc.committed = s.alloc.committed ∧
    ((s.takeClaim k o w n).lineOf k).outSession = (s.lineOf k).outSession ∧
    ((s.takeClaim k o w n).lineOf k).outRecall = (s.lineOf k).outRecall := by
  cases h : s.admission k w n with
  | none =>
    obtain ⟨honly, hsess, hline, hleases, hcommitted, hpower, _⟩ := takeClaim_passed_parts hrestore h
    have hlineOf : (s.takeClaim k o w n).lineOf k = s.lineOf k := congrArg (PerSlot.get · k) hline
    exact ⟨honly, hsess, hpower, hleases, hcommitted, congrArg Line.outSession hlineOf, congrArg Line.outRecall hlineOf⟩
  | some r =>
    rw [takeClaim_refused hrestore h]
    obtain ⟨honly, _, hsess, hleases, hcommitted, hpower, _, hline⟩ := refuseClaim_parts (s := s) (k := k) (r := r) (w := w) hhost
    have hlineOf : (s.refuseClaim k o r w).lineOf k = (s.lineOf k).queueClaim (.deny r) :=
      (congrArg (PerSlot.get · k) hline).trans (PerSlot.get_set_self _ _ _)
    rw [hlineOf]
    exact ⟨honly, hsess, hpower, hleases, hcommitted, Line.queueClaim_outSession _ _, Line.queueClaim_outRecall _ _⟩

/-- A claim refused where the slot has no entry (R26). -/
theorem takeClaim_denied {o : EntryOrigin} {w n : Nat} (hhost : o ≠ .host) (hrestore : o ≠ .restore) (he : s.entryOf k = none)
    (h : s.admission k w n = some r) : (s.takeClaim k o w n).alloc.queue = s.alloc.queue ∧
    ((s.takeClaim k o w n).lineOf k).outClaim = claimAfter (s.lineOf k).outClaim (.deny r) ∧
    (s.takeClaim k o w n).notices = s.notices.take .denied (some k) r false w := by
  rw [takeClaim_refused hrestore h, refuseClaim_of_none hhost he]
  refine ⟨rfl, ?_, rfl⟩
  rw [State.lineOf_post, State.lineOf_modLine, if_pos rfl]
  exact Line.queueClaim_after (m := .deny r) (fun _ _ h => nomatch h) _

/-- Check 6 of the BRINGUP of a session that has just opened (R27, R32). -/
theorem neverFits_greeted : (s.greeted k d).neverFits k 1 = true ↔
    s.available + s.floorOf k < max (s.floorOf k) (d.drawOf 1) + s.floorSum := by
  have honly := onlyAt_greeted (s := s) (k := k) (d := d)
  have hdraw : (s.greeted k d).drawOf k 1 = d.drawOf 1 := by unfold State.drawOf; rw [sessOf_greeted]
  rw [neverFits_iff, honly.available, honly.floorOf, honly.floorSum, hdraw]

/-- On an AUTO slot the session's BRINGUP is taken, and only check 6 can fail (R32). -/
theorem openSession_auto (hauto : (s.policyOf k).startMode = .auto) (hl : s.leaseOf k = none) (hok : d.listOk = true)
    (hcap : d.drawOf 1 ≤ (s.policyOf k).cap) :
    s.openSession k d = (s.greeted k d).takeClaim k .bringup d.preferredTier 1 ∧ (s.greeted k d).admission k d.preferredTier 1 =
      if (s.greeted k d).neverFits k 1 = true then some .neverFits else none := by
  have hdesc : ((s.greeted k d).sessOf k).desc = some d := by rw [sessOf_greeted]
  have hflag : ((s.greeted k d).sessOf k).admitFlag = true := by rw [sessOf_greeted]; exact decide_eq_true hauto
  exact ⟨(openSession_of_auto hauto).trans (bringup_of_desc hdesc),
    admission_bringup hl hflag hdesc hok (by rw [onlyAt_greeted.policyOf]; exact hcap)⟩

/-- Settles O27: the session opens, and on an AUTO slot its BRINGUP is a claim that joins or is refused. -/
theorem aGoodHelloOpensASession : Obligations.AGoodHelloOpensASession := by
  unfold Obligations.AGoodHelloOpensASession
  intro k g d s hd hlisten hen hlease hentry hok hcap
  dsimp only
  generalize hc : Instr.hello k g d.kind d.serial d.flags d.preferred d.draws = c
  have hexec : ∀ u : State, (s.taken c).openSession k d = u → State.OnlyAt k (s.taken c) u → exec c s = .next u.finish := by
    intro u hu honly
    have henu : (u.policyOf k).enabled = true := by rw [honly.policyOf]; exact hen
    rw [← hc, exec_hello hd, hc, hearHello_of_listening (s := s.taken c) hlisten,
      validateHello_passed (s := s.taken c) (helloFault_passed hok hcap), hu, barStandby_of_enabled henu]
  have honly := onlyAt_greeted (s := s.taken c) (k := k) (d := d)
  have hsess := sessOf_greeted (s := s.taken c) (k := k) (d := d)
  obtain ⟨hsession, hrecall, hclaim⟩ := lineOf_greeted (s := s.taken c) (k := k) (d := d)
  have haux := aux_greeted (s := s.taken c) (k := k) (d := d)
  obtain ⟨halloc, hnotices⟩ := greeted_parts (s := s.taken c) (k := k) (d := d)
  rw [State.taken_alloc] at halloc
  by_cases hauto : (s.policyOf k).startMode = .auto
  · obtain ⟨hopen, hadm⟩ := openSession_auto (s := s.taken c) hauto hlease hok hcap
    have hfits := neverFits_greeted (s := s.taken c) (k := k) (d := d)
    have hentryv : ((s.taken c).greeted k d).entryOf k = none := (entryOf_eq_of_queue (by rw [halloc])).trans hentry
    have hnew : ((s.taken c).greeted k d).newEntry k .bringup d.preferredTier 1 =
        ⟨k, nextTag (s.sessOf k).tag, .bringup, d.preferredTier, 1, (s.policyOf k).cls, (s.policyOf k).rank, 0⟩ := by
      unfold State.newEntry; rw [hsess]; rfl
    generalize (s.taken c).greeted k d = v at *
    obtain ⟨honlyv, hsessv, hpowerv, hleasesv, hcommittedv, hsessionv, hrecallv⟩ := takeClaim_parts (s := v) (k := k)
      (o := .bringup) (w := d.preferredTier) (n := 1) (by decide) (by decide)
    refine ⟨_, hexec _ hopen (honly.trans honlyv), (honly.trans honlyv).raised, (honly.trans honlyv).host, (honly.trans honlyv).others,
      ?_, hsessionv.trans hsession, hrecallv.trans hrecall, ?_, hleasesv.trans (by rw [halloc]), hcommittedv.trans (by rw [halloc]),
      fun h => absurd hauto (of_decide_eq_false h), fun _ hle => ?_, fun _ hlt => ?_⟩
    · exact (congrArg (PerSlot.get · k) hsessv).trans hsess
    · unfold State.rampOf at haux ⊢; rw [hpowerv]; exact haux
    · rw [if_neg (fun h => absurd (hfits.1 h) (Nat.not_lt.2 hle))] at hadm
      obtain ⟨pos, hjoined, hposted⟩ := takeClaim_joins (o := .bringup) hentryv hadm
      rw [hnew] at hjoined
      unfold State.Joined at hjoined
      rw [halloc] at hjoined
      exact ⟨pos, hjoined, by rw [hposted, hnotices]; rfl⟩
    · rw [if_pos (hfits.2 hlt)] at hadm
      obtain ⟨hqueue, hdenied, hposted⟩ := takeClaim_denied (o := .bringup) (by decide) (by decide) hentryv hadm
      rw [halloc] at hqueue
      rw [hclaim] at hdenied
      exact ⟨hqueue, hdenied, by rw [hposted, hnotices]; rfl⟩
  · refine ⟨_, hexec _ (openSession_of_host hauto) honly, honly.raised, honly.host, honly.others, hsess, hsession, hrecall, haux,
      by rw [halloc], by rw [halloc], fun _ => ⟨halloc, hnotices, hclaim⟩, fun h => ?_, fun h => ?_⟩
    all_goals exact absurd (of_decide_eq_true h) hauto

end Sys2Proof.Machine
end

section
/-! PROOFS. The end of a session by removal, link grace and restart: the lease goes first, where the slot has one, and the teardown
follows (R76, R87 to R89, R110). -/

namespace Sys2Proof.Machine

variable {s d u : State} {k : Slot} {c : Reason} {st : SessState}

/-! ### The line of a session end -/

/-- The poll timer where a session has ended and its module stays seated (R102). -/
theorem Line.enter_unopened_poll (n : Nat) (x : Line) : (Line.enter (s.unopened k) n x.sessionEnded).poll =
    if (s.policyOf k).enabled = true then some n else none := by
  unfold State.unopened
  split <;> rfl

/-- Where no SEVER is due a session end leaves the line as its new state requires (R88, R102). -/
theorem lineOf_teardown (h : ¬ (c.severs = true ∧ (s.lineOf k).lost = false)) :
    (s.teardown k c st).lineOf k = Line.enter st s.settings.pollPeriod (s.lineOf k).sessionEnded := by
  obtain ⟨_, hline, _⟩ := removeEntry_frame (s := s) (k := k)
  have hset : (s.removeEntry k).settings = s.settings := (onlyAt_removeEntry (k := k)).settings
  unfold State.teardown
  dsimp only
  rw [if_neg (by simpa using h), lineOf_enter, State.lineOf_modMon, State.lineOf_modSess, State.lineOf_modLine, if_pos rfl]
  show Line.enter st (s.removeEntry k).settings.pollPeriod ((s.removeEntry k).line.get k).sessionEnded = _
  rw [hset, hline]
  rfl

/-- A session end leaves Ramp Queue and ramp resource alone. -/
theorem path_teardown : (s.teardown k c st).power.queue = s.power.queue ∧ (s.teardown k c st).power.holder = s.power.holder := by
  obtain ⟨_, _, hpower, _⟩ := removeEntry_frame (s := s) (k := k)
  have key : (s.removeEntry k).power.queue = s.power.queue ∧ (s.removeEntry k).power.holder = s.power.holder := by
    rw [hpower]; exact ⟨rfl, rfl⟩
  unfold State.teardown
  dsimp only
  split <;> exact key

/-! ### A slot without its lease -/

/-- `d` is `s` with slot `k`'s lease dropped, where the slot has one, and at most a notice posted. -/
def State.Unleased (s d : State) (k : Slot) : Prop :=
  s.Dropped d k (s.sessOf k).admitFlag ∨ s.leaseOf k = none ∧ ∃ q, d = { s with notices := q }

theorem unleased_dropLease : s.Unleased (s.dropLease k) k := by
  cases hl : s.leaseOf k with
  | some l => exact .inl (dropped_dropLease hl)
  | none =>
    have hsame : s.dropLease k = s := by unfold State.dropLease; rw [hl]
    exact .inr ⟨hl, s.notices, hsame⟩

theorem unleased_of_none (h : s.leaseOf k = none) : s.Unleased s k := .inr ⟨h, s.notices, rfl⟩

/-- Without a lease there is no drop that would be a cause of a pass (R12). -/
theorem not_dropCalls_of_none (h : s.leaseOf k = none) : ¬ s.DropCalls k := by
  rintro (⟨l, _, _, _, _, hl, _⟩ | hfall)
  · rw [h] at hl; cases hl
  · rw [commitment_of_no_lease h] at hfall; exact Nat.lt_irrefl _ hfall

namespace State.Unleased

theorem post (h : s.Unleased d k) {n : NoticeKind} {o : Option Slot} {r : Reason} {v : Nat} : s.Unleased (d.post n o r v) k := by
  rcases h with h | ⟨hl, q, rfl⟩
  · exact .inl h.post
  · exact .inr ⟨hl, _, rfl⟩

theorem only (h : s.Unleased d k) : State.OnlyAt k s d := by
  rcases h with h | ⟨_, q, rfl⟩
  · exact h.only
  · exact ⟨.refl s, fun _ _ => ⟨rfl, rfl, rfl, rfl, rfl, rfl⟩, rfl, rfl, rfl, rfl, rfl⟩

theorem tag (h : s.Unleased d k) : (d.sessOf k).tag = (s.sessOf k).tag := by
  rcases h with h | ⟨_, q, rfl⟩
  · exact h.tag
  · rfl

theorem lost (h : s.Unleased d k) : (d.lineOf k).lost = (s.lineOf k).lost := by
  rcases h with h | ⟨_, q, rfl⟩
  · obtain ⟨hlost, _⟩ := h.link
    exact hlost
  · rfl

theorem entry (h : s.Unleased d k) : d.entryOf k = s.entryOf k := by
  rcases h with h | ⟨_, q, rfl⟩
  · exact h.entry
  · rfl

theorem beneficiary (h : s.Unleased d k) : d.isBeneficiary k = s.isBeneficiary k := by
  rcases h with h | ⟨_, q, rfl⟩
  · exact h.beneficiary
  · rfl

theorem reclaim (h : s.Unleased d k) (hr : s.alloc.reclaim = none) : d.alloc.reclaim = none := by
  rcases h with h | ⟨_, q, rfl⟩
  · exact h.reclaim hr
  · exact hr

theorem sessionEnded (h : s.Unleased d k) : s.SessionEnded (d.teardown k c st) k c st := by
  rcases h with h | ⟨hl, q, rfl⟩
  · exact h.sessionEnded
  · exact teardown_sessionEnded hl rfl ⟨rfl, rfl, rfl⟩ rfl (by rw [commitment_of_no_lease hl]; exact (Nat.add_sub_cancel ..).symm)

theorem due (h : s.Unleased d k) : s.PassDueBy d (s.DropCalls k) := by
  rcases h with h | ⟨hl, q, rfl⟩
  · exact h.due
  · exact ⟨fun hcalls => absurd hcalls (not_dropCalls_of_none hl), fun _ => rfl⟩

theorem leaseGone_teardown (h : s.Unleased d k) (hl : (s.leaseOf k).isSome = true) : s.LeaseGone (d.teardown k c st) k := by
  rcases h with h | ⟨hnone, _⟩
  · exact h.leaseGone_teardown
  · rw [hnone] at hl; cases hl

end State.Unleased

/-! ### The session ended -/

/-- The session of slot `k` has ended in `u` with `cause` after its lease, where it had one, was dropped (R88): `q` is the Notice Queue
where no reclaim is active, and where no SEVER is due the line is what the new state requires. -/
structure State.Torn (s u : State) (k : Slot) (cause : Reason) (st : SessState) (q : NoticeQueue) : Prop where
  only : State.OnlyAt k s u
  ended : s.SessionEnded u k cause st
  gone : (s.leaseOf k).isSome = true → s.LeaseGone u k
  due : s.PassDueBy u (s.DropCalls k ∨ (s.entryOf k).isSome = true)
  abandoned : (s.entryOf k).isSome = true → s.isBeneficiary k = true → u.alloc.reclaim = none ∧ u.alloc.earmark = 0
  line : ¬ (cause.severs = true ∧ (s.lineOf k).lost = false) →
    ∃ x, u.lineOf k = Line.enter st s.settings.pollPeriod (Line.sessionEnded x)
  notices : s.alloc.reclaim = none → u.notices = q

theorem State.Unleased.torn (h : s.Unleased d k) : s.Torn (d.teardown k c st) k c st d.notices where
  only := h.only.trans onlyAt_teardown
  ended := h.sessionEnded
  gone := h.leaseGone_teardown
  due := by
    have hleaves := State.Dropped.passDueBy_teardown (d := d) (k := k) (c := c) (st := st)
    rw [h.entry] at hleaves
    exact h.due.trans hleaves
  abandoned he hb := by
    rw [State.Dropped.alloc_teardown]
    exact removeEntry_reclaim.2 (by rw [h.entry]; exact he) (h.beneficiary.trans hb)
  line hsever := ⟨_, by rw [lineOf_teardown (by rw [h.lost]; exact hsever), h.only.settings]⟩
  notices hr := (teardown_notices (h.reclaim hr)).1

theorem State.Torn.post {q : NoticeQueue} (h : s.Torn u k c st q) {n : NoticeKind} {o : Option Slot} {r : Reason} {v : Nat} :
    s.Torn (u.post n o r v) k c st (q.take n o r false v) :=
  { h with
    only := h.only.trans onlyAt_post
    notices := fun hr => by rw [State.post_notices, h.notices hr] }

/-- SESSION_CLOSED carries the tag of the session that has ended (R88). -/
theorem State.Unleased.torn_endSession (h : s.Unleased d k) : s.Torn (d.endSession k c st) k c st
    (d.notices.take .sessionClosed (some k) c false (s.sessOf k).tag.toNat) := by
  rw [← h.tag]
  exact h.torn.post

/-! ### Removal -/

/-- The presence timer may stop in the same happening (R76). -/
theorem State.Torn.stopPresence {q : NoticeQueue} (h : s.Torn u k c st q) :
    s.Torn (u.modSess k (fun x => { x with presence := .idle })) k c st q :=
  { h with
    only := h.only.trans onlyAt_modSess
    ended := h.ended.congr rfl (.inr ⟨.idle, by rw [State.sessOf_modSess, if_pos rfl]⟩) rfl rfl rfl }

theorem torn_vacate : s.Torn (s.vacate k) k .removed .vacant
    ((if (s.rampOf k).gate = true then s.notices.take .cut (some k) .removed false (s.grantedTier k) else s.notices).take
      .sessionClosed (some k) .removed false (s.sessOf k).closingTag) := by
  have htorn := ((unleased_dropLease (s := s) (k := k)).torn (c := .removed) (st := .vacant)).stopPresence
  rw [dropLease_notices] at htorn
  unfold State.vacate
  dsimp only
  split
  · exact htorn.post.post
  · exact htorn.post

theorem sessOf_vacate : ((s.vacate k).sessOf k).presence = .idle := by
  unfold State.vacate
  dsimp only
  split <;> simp only [State.sessOf_post, State.sessOf_modSess, if_pos]

theorem exec_removal {n : Nat} (hd : s.store.startDone = true) (hv : (s.sessOf k).state ≠ .vacant)
    (hp : (s.sessOf k).presence = .toRemoval n) : exec (.removal k) s = .next (s.vacate k).finish := by
  refine congrArg Host.Outcome.next ?_
  unfold State.whenLoaded State.removal
  rw [if_pos hd, if_pos ⟨hv, by rw [hp]; rfl⟩]

/-- Settles O9: removal is a session end like any other, with the presence timer stopped and its notices. -/
theorem removalVacatesTheSlot : Obligations.RemovalVacatesTheSlot := by
  unfold Obligations.RemovalVacatesTheSlot
  intro k s n hd hv hp
  have htorn := torn_vacate (s := s) (k := k)
  have hsever : ¬ (Reason.removed.severs = true ∧ (s.lineOf k).lost = false) := fun ⟨h, _⟩ => nomatch h
  obtain ⟨x, hline⟩ := htorn.line hsever
  refine ⟨s.vacate k, exec_removal hd hv hp, htorn.ended, sessOf_vacate, ?_, ?_, htorn.gone, htorn.only.host, htorn.only.others,
    htorn.only.raised, htorn.only.state, htorn.due, htorn.abandoned, htorn.notices⟩
  · rw [hline]; rfl
  · rw [hline]; rfl

/-! ### Link grace -/

theorem exec_linkGraceExpiry (hd : s.store.startDone = true) : exec (.linkGraceExpiry k) s = .next (s.graceExpired k) :=
  congrArg Host.Outcome.next (if_pos hd)

theorem graceExpired_of_up (h : (s.lineOf k).lost = false) : s.graceExpired k = s := if_neg (by rw [h]; decide)

theorem graceExpired_of_gate (h : (s.lineOf k).lost = true) (hs : (s.sessOf k).state = .on ∨ (s.sessOf k).state = .ramping) :
    s.graceExpired k = (((s.dropLease k).post .cut (some k) .linkTimeout (s.grantedTier k)).endSession k .linkTimeout
      (s.unopened k)).finish := by
  unfold State.graceExpired
  rw [if_pos h]
  rcases hs with hs | hs <;> rw [hs]

theorem graceExpired_of_rampWait (h : (s.lineOf k).lost = true) (hs : (s.sessOf k).state = .rampWait) :
    s.graceExpired k = ((s.dropLease k).endSession k .linkTimeout (s.unopened k)).finish := by
  unfold State.graceExpired
  rw [if_pos h, hs]

theorem graceExpired_of_standby (h : (s.lineOf k).lost = true) (hs : (s.sessOf k).state = .standby) :
    s.graceExpired k = (s.endSession k .linkTimeout (s.unopened k)).finish := by
  unfold State.graceExpired
  rw [if_pos h, hs]

/-- On a LOST link a session end queues no SEVER, and the slot polls again where it is enabled (R88, R102). -/
theorem State.Torn.poll {q : NoticeQueue} (h : s.Torn u k c (s.unopened k) q) (hlost : (s.lineOf k).lost = true) :
    (u.lineOf k).poll = if (s.policyOf k).enabled = true then some s.settings.pollPeriod else none := by
  obtain ⟨x, hline⟩ := h.line fun ⟨_, hup⟩ => by rw [hlost] at hup; cases hup
  rw [hline, Line.enter_unopened_poll]

/-- Settles O26: in each state the lease is dropped where there is one, and the session ends. -/
theorem linkGraceEndsTheSession : Obligations.LinkGraceEndsTheSession := by
  unfold Obligations.LinkGraceEndsTheSession
  intro k s hd
  dsimp only
  rw [exec_linkGraceExpiry hd]
  refine ⟨fun h => by rw [graceExpired_of_up h], fun h hs hl => ?_, fun h hs hl => ?_, fun h hs hl => ?_⟩
  · have htorn := (unleased_dropLease (s := s) (k := k)).post (n := .cut) (o := some k) (r := .linkTimeout)
      (v := s.grantedTier k) |>.torn_endSession (c := .linkTimeout) (st := s.unopened k)
    rw [State.post_notices, dropLease_notices] at htorn
    exact ⟨_, by rw [graceExpired_of_gate h hs], htorn.ended, htorn.poll h, htorn.due, htorn.gone hl, htorn.only.host,
      htorn.only.others, htorn.only.raised, htorn.notices⟩
  · have htorn := (unleased_dropLease (s := s) (k := k)).torn_endSession (c := .linkTimeout) (st := s.unopened k)
    rw [dropLease_notices] at htorn
    exact ⟨_, by rw [graceExpired_of_rampWait h hs], htorn.ended, htorn.poll h, htorn.due, htorn.gone hl, htorn.only.host,
      htorn.only.others, htorn.only.raised, htorn.notices⟩
  · have htorn := (unleased_of_none hl).torn_endSession (c := .linkTimeout) (st := s.unopened k)
    obtain ⟨hqueue, hholder⟩ := path_teardown (s := s) (k := k) (c := .linkTimeout) (st := s.unopened k)
    exact ⟨_, by rw [graceExpired_of_standby h hs], htorn.ended, htorn.poll h, htorn.due, htorn.only.host,
      htorn.only.others, htorn.only.raised, hqueue, hholder, htorn.notices⟩

/-! ### Restart -/

theorem torn_restart : s.Torn (s.restart k) k .moduleRestart .listening
    ((if (s.rampOf k).gate = true then s.notices.take .cut (some k) .moduleRestart false (s.grantedTier k) else s.notices).take
      .sessionClosed (some k) .moduleRestart false (s.sessOf k).tag.toNat) := by
  have hdrop := unleased_dropLease (s := s) (k := k)
  have hnotices := dropLease_notices (s := s) (k := k)
  unfold State.restart
  dsimp only
  split
  · have htorn := (hdrop.post (n := .cut) (o := some k) (r := .moduleRestart) (v := s.grantedTier k)).torn_endSession
      (c := .moduleRestart) (st := .listening)
    rwa [State.post_notices, hnotices] at htorn
  · rw [← hnotices]
    exact hdrop.torn_endSession

theorem SessState.isOpen_iff : st.isOpen = true ↔ st = .standby ∨ st = .rampWait ∨ st = .ramping ∨ st = .on := by
  cases st <;> simp [SessState.isOpen]

theorem hearHello_of_open {x : Descriptor} (h : (s.sessOf k).state.isOpen = true) :
    s.hearHello k x = (((s.restart k).validateHello k x).barStandby k).finish := by
  unfold State.hearHello
  rcases SessState.isOpen_iff.1 h with hs | hs | hs | hs <;> rw [hs]

/-- Settles O29: the state of the restart, the HELLO back among the happenings raised, takes the HELLO as in LISTENING. -/
theorem aRestartHelloEndsTheOldSession : Obligations.ARestartHelloEndsTheOldSession := by
  unfold Obligations.ARestartHelloEndsTheOldSession
  intro k g kind serial flags pref draws s hd hopen
  dsimp only
  generalize hc : Instr.hello k g kind serial flags pref draws = c
  have htorn := torn_restart (s := s.taken c) (k := k)
  have hstate := state_restart (s := s.taken c) (k := k)
  have hraised : ((s.taken c).restart k).raised = s.raised.erase c := htorn.only.raised
  have hstore : ((s.taken c).restart k).store = s.store := by
    obtain ⟨_, _, hstore, _⟩ := htorn.only.host
    exact hstore
  have hexec : exec c s =
      .next ((((s.taken c).restart k).validateHello k ⟨kind, serial, flags, pref, draws⟩).barStandby k).finish := by
    rw [← hc, exec_hello hd, hc, hearHello_of_open (s := s.taken c) hopen]
  generalize (s.taken c).restart k = w at *
  have htaken : State.taken c { w with raised := s.raised } = w := by
    show { w with raised := s.raised.erase c } = w
    rw [← hraised]
  refine ⟨{ w with raised := s.raised }, ?_, htorn.ended, htorn.gone, ?_, htorn.due, htorn.only.host, htorn.only.others, rfl,
    htorn.notices⟩
  · rw [hexec, ← hc, exec_hello (s := { w with raised := s.raised }) (by rw [hstore]; exact hd), hc, htaken,
      hearHello_of_listening hstate]
  · obtain ⟨_, _, _, ⟨_, _, hsession, _⟩, _⟩ := htorn.ended
    exact hsession

end Sys2Proof.Machine
end

section
/-! PROOFS. YIELD, READY and FAULT on a lease in ON without a LOWER: the RAISE cancelled first, the tier taken at once, the lease dropped
and its session settled (R16, R50, R85, R86, R91). -/

namespace Sys2Proof.Machine

variable {s d : State} {k : Slot} {l : Lease} {flag : Bool}

/-! ### The message in ON -/

/-- The session of slot `k` is in ON under tag `g`, and the load is complete (R81, R83). -/
structure State.HearsOn (s : State) (k : Slot) (g : Byte) : Prop where
  loaded : s.store.startDone = true
  on : (s.sessOf k).state = .on
  tag : g = (s.sessOf k).tag

theorem State.HearsOn.dispatch {g : Byte} (h : s.HearsOn k g) (c : Instr) (f : State → State) :
    (s.taken c).whenLoaded (State.dispatch k g f) = f (s.taken c) := by
  have htag : g = (s.taken c).frameTag k := by
    unfold State.frameTag
    rw [State.sessOf_taken, h.on]
    exact h.tag
  exact (if_pos h.loaded).trans (if_pos htag)

theorem exec_yield_on {g v : Byte} (h : s.HearsOn k g) :
    exec (.yieldTier k g v) s = .next ((s.taken (.yieldTier k g v)).yieldOn k g v.toNat).finish := by
  refine congrArg Host.Outcome.next ((h.dispatch _ _).trans ?_)
  unfold State.hearYield
  rw [State.sessOf_taken, h.on]

theorem exec_ready_on {g v : Byte} (h : s.HearsOn k g) :
    exec (.ready k g v) s = .next ((s.taken (.ready k g v)).readyOn k g v.toNat).finish := by
  refine congrArg Host.Outcome.next ((h.dispatch _ _).trans ?_)
  unfold State.hearReady
  rw [State.sessOf_taken, h.on]

theorem exec_fault_on {g code : Byte} (h : s.HearsOn k g) :
    exec (.moduleFault k g code) s = .next ((s.taken (.moduleFault k g code)).faultOn k g code.toNat).finish := by
  refine congrArg Host.Outcome.next ((h.dispatch _ _).trans ?_)
  unfold State.hearFault
  rw [State.sessOf_taken, h.on]

/-- The lease carries no LOWER: what a READY or a YIELD would end (R50). -/
theorem not_lowers (hl : s.leaseOf k = some l) (hx : ∀ t w o n, l.trans ≠ some (.lower t w o n)) : ¬ s.Lowers k := by
  rintro ⟨l', t, w, o, n, hl', hlower⟩
  rw [hl] at hl'; cases hl'
  exact hx t w o n hlower

theorem readyOn_of_no_lower {g : Byte} {n : Nat} (hl : s.leaseOf k = some l) (hx : ∀ t w o n, l.trans ≠ some (.lower t w o n)) :
    s.readyOn k g n = s := by
  unfold State.readyOn
  rw [hl]
  dsimp only
  split
  · rename_i hlower; exact absurd hlower (hx _ _ _ _)
  · rfl
  · rfl

theorem cancelRaise_of_not_raising (h : s.raising k = false) : s.cancelRaise k = s := by
  unfold State.cancelRaise
  split
  · rfl
  · rw [h]; rfl

theorem cancelRaise_of_raising (hl : s.leaseOf k = some l) (h : s.raising k = true) :
    s.cancelRaise k = (s.setLease k (some { l with trans := none })).modLine k Line.cancelGrant := by
  unfold State.cancelRaise
  rw [hl]
  exact if_pos h

/-- A YIELD without a LOWER cancels a RAISE, if one is in flight, and takes its tier (R85). -/
theorem yieldOn_of_no_lower {g : Byte} {n : Nat} (hl : s.leaseOf k = some l) (hg : l.tag = g)
    (hx : ∀ t w o n, l.trans ≠ some (.lower t w o n)) : s.yieldOn k g n = (s.cancelRaise k).yieldPlain k n := by
  unfold State.yieldOn
  rw [hl]
  dsimp only
  rw [if_pos hg]
  split
  · rename_i hlower; exact absurd hlower (hx _ _ _ _)
  · rfl
  · rename_i hnone
    rw [cancelRaise_of_not_raising (by unfold State.raising; rw [hl]; dsimp only; rw [hnone])]

/-! ### The RAISE cancelled -/

theorem Line.cancelGrant_parts (x : Line) : x.cancelGrant.outSession = x.outSession ∧ x.cancelGrant.outRecall = x.outRecall ∧
    x.cancelGrant.lost = x.lost ∧ x.cancelGrant.counters = x.counters ∧ x.cancelGrant.seq = x.seq := by
  unfold Line.cancelGrant
  split
  · unfold Line.queue Line.kick
    split <;> exact ⟨rfl, rfl, rfl, rfl, rfl⟩
  · exact ⟨rfl, rfl, rfl, rfl, rfl⟩

theorem Line.cancelGrant_of_grant {x : Line} {n : Nat} {b : Bool} (h : x.outClaim = some (.grant n b)) :
    x.cancelGrant.outClaim = some (.deny .cancelled) := by
  unfold Line.cancelGrant
  rw [h]
  exact Line.queue_claim _ x

theorem Line.cancelGrant_of_no_grant {x : Line} (h : ∀ n b, x.outClaim ≠ some (.grant n b)) : x.cancelGrant = x := by
  unfold Line.cancelGrant
  split
  · rename_i hx; exact absurd hx (h _ _)
  · rfl

/-- `t` is `s` with the RAISE of slot `k`'s lease `l` cancelled, where it has one (R16). -/
structure State.Cancelled (s t : State) (k : Slot) (l : Lease) : Prop where
  only : State.OnlyAt k s t
  lease : t.leaseOf k = some { l with trans := none }
  committed : t.alloc.committed = s.alloc.committed + max (s.floorOf k) l.draw - s.commitment k
  due : s.PassDueBy t (max (s.floorOf k) l.draw < s.commitment k)
  reclaim : s.ReclaimSame t
  sess : t.sess = s.sess
  power : t.power = s.power
  mon : t.mon = s.mon
  entry : t.entryOf k = s.entryOf k
  notices : t.notices = s.notices
  line : t.lineOf k = (s.lineOf k).cancelGrant ∧ s.raising k = true ∨ t.lineOf k = s.lineOf k ∧ s.raising k = false

theorem cancelled_cancelRaise (hl : s.leaseOf k = some l) (hx : ∀ t w o n, l.trans ≠ some (.lower t w o n)) :
    s.Cancelled (s.cancelRaise k) k l := by
  have hterm : Lease.term (some { l with trans := none }) = l.draw := Nat.max_zero _
  cases hraise : s.raising k with
  | true =>
    have hcommitted := committed_setLease (s := s) (k := k) (l := some { l with trans := none })
    have hcommitment := commitment_setLease (s := s) (k := k) (l := some { l with trans := none }) k
    rw [hterm] at hcommitted hcommitment
    rw [if_pos rfl] at hcommitment
    rw [cancelRaise_of_raising hl hraise]
    exact {
      only := onlyAt_setLease.trans onlyAt_modLine
      lease := by rw [State.leaseOf_modLine, State.leaseOf_setLease, if_pos rfl]
      committed := hcommitted
      due := by
        have hmark : (s.setLease k (some { l with trans := none })).alloc.passDue =
            (s.alloc.passDue || decide (max (s.floorOf k) l.draw < s.commitment k)) := by rw [← hcommitment]; rfl
        refine ⟨fun h => ?_, fun h => ?_⟩
        · exact hmark.trans (by rw [decide_eq_true h, Bool.or_true])
        · exact hmark.trans (by rw [decide_eq_false h, Bool.or_false])
      reclaim := ⟨rfl, rfl⟩
      sess := rfl
      power := rfl
      mon := rfl
      entry := rfl
      notices := rfl
      line := .inl ⟨by rw [State.lineOf_modLine, if_pos rfl, State.lineOf_setLease], hraise⟩ }
  | false =>
    have hcommitment : s.commitment k = max (s.floorOf k) l.draw := by
      unfold State.commitment; rw [term_of_not_raising hl hraise]
    have htrans : l.trans = none := by
      unfold State.raising at hraise
      rw [hl] at hraise
      rcases l with ⟨_, _, _, _, _ | _ | _⟩
      · rfl
      · cases hraise
      · exact absurd rfl (hx _ _ _ _)
    rw [cancelRaise_of_not_raising hraise]
    exact {
      only := .refl s k
      lease := by rw [hl, ← htrans]
      committed := by rw [hcommitment, Nat.add_sub_cancel]
      due := ⟨fun h => absurd h (by rw [hcommitment]; exact Nat.lt_irrefl _), fun _ => rfl⟩
      reclaim := ⟨rfl, rfl⟩
      sess := rfl
      power := rfl
      mon := rfl
      entry := rfl
      notices := rfl
      line := .inr ⟨rfl, hraise⟩ }

namespace State.Cancelled

variable {t : State}

theorem sessOf (h : s.Cancelled t k l) : t.sessOf k = s.sessOf k := congrArg (PerSlot.get · k) h.sess

theorem commitment (h : s.Cancelled t k l) : t.commitment k = max (s.floorOf k) l.draw := by
  unfold State.commitment
  rw [h.lease, h.only.floorOf]
  exact congrArg (max _) (Nat.max_zero _)

theorem drawOf (h : s.Cancelled t k l) (n : Nat) : t.drawOf k n = s.drawOf k n := drawOf_congr (by rw [h.sessOf]) n

/-- The lease before counted no less than its granted draw. -/
theorem le_commitment (hl : s.leaseOf k = some l) : max (s.floorOf k) l.draw ≤ s.commitment k := by
  unfold State.commitment Lease.term
  rw [hl]
  exact max_le_max le_rfl (le_max_left _ _)

theorem link (h : s.Cancelled t k l) : (t.lineOf k).lost = (s.lineOf k).lost ∧ (t.lineOf k).counters = (s.lineOf k).counters ∧
    (t.lineOf k).seq = (s.lineOf k).seq := by
  obtain ⟨_, _, hlost, hcounters, hseq⟩ := Line.cancelGrant_parts (s.lineOf k)
  rcases h.line with ⟨hline, _⟩ | ⟨hline, _⟩ <;> rw [hline]
  · exact ⟨hlost, hcounters, hseq⟩
  · exact ⟨rfl, rfl, rfl⟩

/-- The cancellation is all that a recall which is not issued does (R47). -/
theorem recallNotIssued (h : s.Cancelled t k l) (hl : s.leaseOf k = some l) (hx : ∀ t w o n, l.trans ≠ some (.lower t w o n)) :
    s.RecallNotIssued t k := by
  obtain ⟨hsession, hrecall, _⟩ := Line.cancelGrant_parts (s.lineOf k)
  intro l' hl'
  rw [hl] at hl'; cases hl'
  have hraising : s.raising k = true ↔ ∃ n w o, l.trans = some (.raise n w o) := by
    unfold State.raising
    rw [hl]
    rcases l with ⟨_, _, _, _, _ | _ | _⟩ <;> simp
  refine ⟨?_, ?_, ?_, ?_, h.committed, h.due, h.notices⟩
  · rw [h.lease]
    rcases l with ⟨_, _, _, _, _ | _ | _⟩
    · rfl
    · rfl
    · exact absurd rfl (hx _ _ _ _)
  · rcases h.line with ⟨hline, _⟩ | ⟨hline, _⟩ <;> rw [hline]
    exact hrecall
  · rcases h.line with ⟨hline, _⟩ | ⟨hline, _⟩ <;> rw [hline]
    exact hsession
  · rcases h.line with ⟨hline, hraise⟩ | ⟨hline, hraise⟩ <;> rw [hline]
    · obtain ⟨n, w, o, htrans⟩ := hraising.1 hraise
      rw [htrans]
      cases hm : (s.lineOf k).outClaim with
      | none => rw [Line.cancelGrant_of_no_grant (by rw [hm]; nofun), hm]
      | some m => cases m with
        | grant n b => rw [Line.cancelGrant_of_grant hm]
        | _ => rw [Line.cancelGrant_of_no_grant (by rw [hm]; nofun), hm]
    · rcases l with ⟨_, _, _, _, _ | _ | _⟩
      · rfl
      · rw [hraising.2 ⟨_, _, _, rfl⟩] at hraise; cases hraise
      · exact absurd rfl (hx _ _ _ _)

/-- A lease dropped after its RAISE has been cancelled is dropped all the same: committed falls to the floor (R12, R16). -/
theorem dropped (h : s.Cancelled t k l) (hl : s.leaseOf k = some l) (hx : ∀ t w o n, l.trans ≠ some (.lower t w o n))
    (hd : t.Dropped d k flag) : s.Dropped d k flag := by
  have hfall : max (s.floorOf k) l.draw ≤ s.commitment k := le_commitment hl
  have hle : s.floorOf k ≤ max (s.floorOf k) l.draw := le_max_left _ _
  have hlowers := not_lowers hl hx
  have hlowers' : ¬ t.Lowers k := not_lowers h.lease nofun
  have hben : t.isBeneficiary k = s.isBeneficiary k := isBeneficiary_congr (by rw [h.reclaim.1])
  have hramp : t.rampOf k = s.rampOf k := congrArg (PerSlot.get · k) (congrArg PowerPath.slots h.power)
  obtain ⟨hlost, hcounters, hseq⟩ := h.link
  obtain ⟨hlost', hcounters', hseq'⟩ := hd.link
  have hgone := hd.gone
  unfold State.LeaseGone State.LeaseOff State.DropCredits at hgone
  rw [h.committed, h.commitment, h.only.floorOf, hramp, h.entry, hben] at hgone
  obtain ⟨⟨hnone, hcommitted, hpath⟩, hsame, habandoned⟩ := hgone
  have hdue := h.due.trans hd.due
  unfold State.DropCalls at hdue
  rw [h.only.floorOf, h.commitment] at hdue
  exact {
    only := h.only.trans hd.only
    gone := by
      refine ⟨⟨hnone, by rw [hcommitted]; omega, hpath⟩, fun hent => ⟨fun hlow => absurd hlow hlowers, fun _ => ?_⟩, habandoned⟩
      obtain ⟨hreclaim, hearmark⟩ := (hsame hent).2 hlowers'
      exact ⟨hreclaim.trans h.reclaim.1, hearmark.trans h.reclaim.2⟩
    entry := hd.entry.trans h.entry
    beneficiary := hd.beneficiary.trans hben
    admitFlag := hd.admitFlag
    tag := hd.tag.trans (by rw [h.sessOf])
    desc := hd.desc.trans (by rw [h.sessOf])
    protoErrors := hd.protoErrors.trans (by rw [h.sessOf])
    link := ⟨hlost'.trans hlost, hcounters'.trans hcounters, hseq'.trans hseq⟩
    struck := hd.struck.trans (congrArg (fun m : Monitor => (m.slots.get k).struck) h.mon)
    due := hdue.congr (by unfold State.DropCalls; simp only [hlowers, hlowers', false_or]; omega)
    reclaim := fun hr => hd.reclaim (h.reclaim.1.trans hr) }

end State.Cancelled

/-! ### The tier taken -/

theorem yieldPlain_of_le {n : Nat} (hl : s.leaseOf k = some l) (h : l.tier ≤ n) : s.yieldPlain k n = s := by
  unfold State.yieldPlain
  rw [hl]
  exact if_pos h

theorem yieldPlain_zero (hl : s.leaseOf k = some l) (h : 0 < l.tier) :
    s.yieldPlain k 0 = ((s.dropLease k).post .recallDone (some k) .yielded 0).settle k := by
  unfold State.yieldPlain
  rw [hl]
  exact (if_neg (Nat.not_le.2 h)).trans (if_pos rfl)

theorem yieldPlain_lowered {n : Nat} (hl : s.leaseOf k = some l) (h : n < l.tier) (hn : 1 ≤ n) : s.yieldPlain k n =
    (s.setLease k (some { l with tier := n, draw := s.drawOf k n })).post .recallDone (some k) .yielded n := by
  unfold State.yieldPlain
  rw [hl]
  exact (if_neg (Nat.not_le.2 h)).trans (if_neg (Nat.one_le_iff_ne_zero.1 hn))

theorem onlyAt_yieldPlain {n : Nat} : State.OnlyAt k s (s.yieldPlain k n) := by
  unfold State.yieldPlain
  split
  · exact .refl s k
  · split
    · exact .refl s k
    · split
      · exact (onlyAt_dropLease.trans onlyAt_post).trans onlyAt_settle
      · exact onlyAt_setLease.trans onlyAt_post

/-- A tier below the granted one is taken at once, after the RAISE has been cancelled (R16, R85). -/
theorem State.Cancelled.yieldPlain_lowered {t : State} {n : Nat} (h : s.Cancelled t k l) (hlt : n < l.tier) (hn : 1 ≤ n) :
    let u := t.yieldPlain k n
    s.ReclaimSame u ∧ u.leaseOf k = some { l with tier := n, draw := s.drawOf k n, trans := none } ∧
    (s.commitment k ≤ s.alloc.committed →
      u.alloc.committed = s.alloc.committed + max (s.floorOf k) (s.drawOf k n) - s.commitment k) ∧
    s.PassDueBy u (max (s.floorOf k) l.draw < s.commitment k ∨ max (s.floorOf k) (s.drawOf k n) < max (s.floorOf k) l.draw) ∧
    u.sess = s.sess ∧ u.power = s.power ∧ u.mon = s.mon ∧ u.entryOf k = s.entryOf k ∧
    u.notices = s.notices.take .recallDone (some k) .yielded false n := by
  dsimp only
  rw [Machine.yieldPlain_lowered h.lease hlt hn, h.drawOf]
  have hterm : Lease.term (some { l with tier := n, draw := s.drawOf k n, trans := none }) = s.drawOf k n := Nat.max_zero _
  generalize hv : t.setLease k (some { l with tier := n, draw := s.drawOf k n, trans := none }) = v
  have hcommitted : v.alloc.committed = t.alloc.committed + max (s.floorOf k) (s.drawOf k n) - max (s.floorOf k) l.draw := by
    rw [← hv, committed_setLease, hterm, h.commitment, h.only.floorOf]
  have hcommitment : v.commitment k = max (s.floorOf k) (s.drawOf k n) := by
    rw [← hv, commitment_setLease, if_pos rfl, hterm, h.only.floorOf]
  have hmark : v.alloc.passDue =
      (t.alloc.passDue || decide (max (s.floorOf k) (s.drawOf k n) < max (s.floorOf k) l.draw)) := by
    rw [← hcommitment, ← h.commitment, ← hv]; rfl
  have hfall : t.PassDueBy v (max (s.floorOf k) (s.drawOf k n) < max (s.floorOf k) l.draw) := by
    refine ⟨fun hlt => ?_, fun hge => ?_⟩
    · rw [hmark, decide_eq_true hlt, Bool.or_true]
    · rw [hmark, decide_eq_false hge, Bool.or_false]
  have hlease : v.leaseOf k = some { l with tier := n, draw := s.drawOf k n, trans := none } := by
    rw [← hv, State.leaseOf_setLease, if_pos rfl]
  have hreclaim : s.ReclaimSame v := by rw [← hv]; exact h.reclaim
  refine ⟨hreclaim, hlease, fun hle => ?_, h.due.trans hfall, ?_, ?_, ?_, ?_, ?_⟩
  · show v.alloc.committed = _
    rw [hcommitted, h.committed]
    omega
  · rw [← hv]; exact h.sess
  · rw [← hv]; exact h.power
  · rw [← hv]; exact h.mon
  · rw [← hv]; exact h.entry
  · rw [State.post_notices, ← hv, State.setLease_notices, h.notices]

/-- Tier 0 drops the lease, after the RAISE has been cancelled, and the session settles (R16, R53, R85). -/
theorem State.Cancelled.yieldPlain_zero {t : State} (h : s.Cancelled t k l) (hl : s.leaseOf k = some l)
    (hx : ∀ t w o n, l.trans ≠ some (.lower t w o n)) (hpos : 0 < l.tier) :
    s.Settles (t.yieldPlain k 0) k (s.sessOf k).admitFlag false (s.notices.take .recallDone (some k) .yielded false 0) := by
  have hdropped := h.dropped hl hx (dropped_dropLease h.lease)
  rw [h.sessOf] at hdropped
  have hnotices : ((t.dropLease k).post .recallDone (some k) .yielded 0).notices =
      s.notices.take .recallDone (some k) .yielded false 0 := by
    rw [State.post_notices, dropLease_notices, h.notices]
  rw [Machine.yieldPlain_zero h.lease hpos, ← hnotices]
  exact hdropped.post.settles

/-- Settles O33: the RAISE is cancelled first, and the YIELD is then ignored, taken at once, or drops the lease. -/
theorem aYieldHandsPowerBack : Obligations.AYieldHandsPowerBack := by
  unfold Obligations.AYieldHandsPowerBack
  intro k g v s l hd hon hg hl htag hx
  have hears : s.HearsOn k g := ⟨hd, hon, hg⟩
  refine ⟨by rw [exec_ready_on hears, readyOn_of_no_lower (s := s.taken _) hl hx]; rfl, ?_⟩
  generalize hc : Instr.yieldTier k g v = c
  have hcancel := cancelled_cancelRaise (s := s.taken c) hl hx
  have hexec : exec c s = .next (((s.taken c).cancelRaise k).yieldPlain k v.toNat).finish := by
    rw [← hc, exec_yield_on hears, hc, yieldOn_of_no_lower (s := s.taken c) hl htag hx]
  generalize (s.taken c).cancelRaise k = t at *
  have honly := hcancel.only.trans (onlyAt_yieldPlain (n := v.toNat))
  refine ⟨_, hexec, honly.raised, honly.host, honly.others, fun hn => ?_, fun hle => ?_, fun hlt hn => ?_, fun hlt hn => ?_⟩
  · by_cases hle : l.tier ≤ v.toNat
    · rw [yieldPlain_of_le hcancel.lease hle]
      exact hcancel.reclaim
    · obtain ⟨hreclaim, _⟩ := hcancel.yieldPlain_lowered (Nat.lt_of_not_le hle) hn
      exact hreclaim
  · rw [yieldPlain_of_le hcancel.lease hle]
    exact ⟨hcancel.recallNotIssued hl hx, hcancel.sess, hcancel.power, hcancel.mon, hcancel.entry⟩
  · obtain ⟨_, hrest⟩ := hcancel.yieldPlain_lowered hlt hn
    exact hrest
  · rw [hn] at hlt ⊢
    exact hcancel.yieldPlain_zero hl hx hlt

/-! ### The module's fault -/

/-- The last reason may be set before the session settles (R86). -/
theorem State.Dropped.withLastEnd (h : s.Dropped d k flag) {r : Reason} :
    s.Dropped (d.modSess k (fun x => { x with lastEnd := r })) k flag := by
  have hsess : (d.modSess k (fun x => { x with lastEnd := r })).sessOf k = { d.sessOf k with lastEnd := r } := by
    rw [State.sessOf_modSess, if_pos rfl]
  exact { h with
    only := h.only.trans onlyAt_modSess
    admitFlag := by rw [hsess]; exact h.admitFlag
    tag := by rw [hsess]; exact h.tag
    desc := by rw [hsess]; exact h.desc
    protoErrors := by rw [hsess]; exact h.protoErrors }

/-- A session that settles on an enabled slot keeps its last reason (R53, R73). -/
theorem State.Dropped.lastEnd_settle (h : s.Dropped d k flag) (hen : (s.policyOf k).enabled = true) :
    ((d.settle k).sessOf k).lastEnd = (d.sessOf k).lastEnd := by
  rw [h.settle_of_enabled hen]
  split
  · rw [sessOf_enter]
  · rw [sessOf_denyEntry, sessOf_enter]

theorem faultOn_of_tag {g : Byte} {n : Nat} (hl : s.leaseOf k = some l) (hg : l.tag = g) : s.faultOn k g n =
    (((s.dropLease k).modSess k (fun x => { x with lastEnd := .moduleFault })).post .cut (some k) .moduleFault n).settle k := by
  unfold State.faultOn
  rw [hl]
  exact if_pos hg

/-- Settles O34: the drop with the module's code, and the settlement that follows it. -/
theorem aModuleFaultDropsTheLease : Obligations.AModuleFaultDropsTheLease := by
  unfold Obligations.AModuleFaultDropsTheLease
  intro k g code s l hd hon hg hl htag
  generalize hc : Instr.moduleFault k g code = c
  have hexec : exec c s = .next ((s.taken c).faultOn k g code.toNat).finish := by
    rw [← hc, exec_fault_on ⟨hd, hon, hg⟩]
  rw [faultOn_of_tag (s := s.taken c) hl htag] at hexec
  have hdropped := ((dropped_dropLease (s := s.taken c) hl).withLastEnd (r := .moduleFault)).post (c := .cut) (o := some k)
    (r := .moduleFault) (v := code.toNat)
  have hnotices : ((((s.taken c).dropLease k).modSess k (fun x => { x with lastEnd := .moduleFault })).post .cut (some k)
      .moduleFault code.toNat).notices = s.notices.take .cut (some k) .moduleFault false code.toNat := by
    rw [State.post_notices, State.modSess_notices, dropLease_notices]; rfl
  have honly := hdropped.only.trans onlyAt_settle
  refine ⟨_, hexec, honly.raised, honly.host, honly.others, ?_, fun hen => ?_⟩
  · rw [← hnotices]
    exact hdropped.settles
  · rw [hdropped.lastEnd_settle hen, State.sessOf_post, State.sessOf_modSess, if_pos rfl]

end Sys2Proof.Machine
end

section
/-! PROOFS. The slot line's own timers and the choice of the next frame: the frame that goes again, a replacement, or steps 3 and 4 of
R100 (R95, R97, R100, R102, R104). -/

namespace Sys2Proof.Machine

variable {s : State} {k : Slot} {l : Line} {m : DownMsg} {byPoll b fresh : Bool} {f : Frame} {p : PendingFrame} {n : Nat}

/-! ### The commands of the slot line -/

theorem exec_pollTimer (hd : s.store.startDone = true) : exec (.pollTimer k) s = .next (s.pollElapsed k) :=
  congrArg Host.Outcome.next (if_pos hd)

theorem exec_frameSend (hd : s.store.startDone = true) : exec (.frameSend k) s = .next (s.sendFrame k) :=
  congrArg Host.Outcome.next (if_pos hd)

theorem exec_lineGapTimeout (hd : s.store.startDone = true) : exec (.lineGapTimeout k) s = .next (s.gapTimeout k) :=
  congrArg Host.Outcome.next (if_pos hd)

theorem exec_responseTimeout (hd : s.store.startDone = true) : exec (.responseTimeout k) s = .next (s.responseTimeout k) :=
  congrArg Host.Outcome.next (if_pos hd)

theorem exec_responseComplete {bytes : List Byte} {low : Bool} (hd : s.store.startDone = true) :
    exec (.responseComplete k bytes low) s = .next (s.responseComplete k bytes low) :=
  congrArg Host.Outcome.next (if_pos hd)

theorem exec_responseBegin (hd : s.store.startDone = true) : exec (.responseBegin k) s = .next (s.responseBegin k) :=
  congrArg Host.Outcome.next (if_pos hd)

/-! ### POLL_TIMER and RESPONSE_BEGIN -/

theorem pollElapsed_of_stopped (h : (s.lineOf k).poll = none) : s.pollElapsed k = s := by
  unfold State.pollElapsed; rw [h]

theorem pollElapsed_of_running (h : (s.lineOf k).poll = some n) : s.pollElapsed k = s.modLine k (fun l => { l with
    poll := none
    phase := match l.phase with
      | .idle => if (s.sessOf k).state.polls = true then .due 0 true else .idle
      | .due e _ => .due e true
      | .awaiting f e => .awaiting f e
      | .receiving f e => .receiving f e }) := by
  unfold State.pollElapsed State.modLine
  rw [h]
  dsimp only
  congr 3
  cases (s.line.get k).phase <;> rfl

theorem responseBegin_of_awaiting {e : Nat} (h : (s.lineOf k).phase = .awaiting f e) :
    s.responseBegin k = s.modLine k (fun l => { l with phase := .receiving f e }) := by
  unfold State.responseBegin; rw [h]

theorem responseBegin_of_not_awaiting (h : ∀ f e, (s.lineOf k).phase ≠ .awaiting f e) : s.responseBegin k = s := by
  unfold State.responseBegin
  split
  · rename_i f e ha; exact absurd ha (h f e)
  · rfl
  · rfl
  · rfl

/-- Settles O25, a case for each state of the timer and of the line. -/
theorem thePollTimerMakesAFrameDue : Obligations.ThePollTimerMakesAFrameDue := by
  unfold Obligations.ThePollTimerMakesAFrameDue
  intro k s hd
  dsimp only
  rw [exec_pollTimer hd, exec_responseBegin hd]
  refine ⟨fun h => ?_, fun n h => ?_, fun f e h => ?_, fun h => ?_⟩
  · rw [pollElapsed_of_stopped h]
  · rw [pollElapsed_of_running h]; rfl
  · rw [responseBegin_of_awaiting h]; rfl
  · rw [responseBegin_of_not_awaiting h]

/-! ### Steps 3 and 4 of R100 -/

/-- The three channels are empty. -/
def Line.Empty (l : Line) : Prop := l.outSession = none ∧ l.outRecall = none ∧ l.outClaim = none

theorem Line.first_of_session (h : l.outSession = some m) : l.first = some (.session, m) := by
  unfold Line.first; rw [h]

theorem Line.first_of_recall (hs : l.outSession = none) (h : l.outRecall = some m) : l.first = some (.recall, m) := by
  unfold Line.first; rw [hs, h]

theorem Line.first_of_claim (hs : l.outSession = none) (hr : l.outRecall = none) (h : l.outClaim = some m) :
    l.first = some (.claim, m) := by
  unfold Line.first; rw [hs, hr, h]

theorem Line.first_of_empty (h : l.Empty) : l.first = none := by
  obtain ⟨hs, hr, hc⟩ := h
  unfold Line.first; rw [hs, hr, hc]

theorem chooseNew_of_first {c : Channel} (h : (s.lineOf k).first = some (c, m)) :
    s.chooseNew k byPoll = some (freshFrame m (some c) (s.frameTag k)) := by
  unfold State.chooseNew; rw [h]

theorem chooseNew_of_poll (h : (s.lineOf k).Empty) (hm : (s.sessOf k).state.pollMsg = some m) :
    s.chooseNew k true = some (freshFrame m none (s.frameTag k)) := by
  unfold State.chooseNew; rw [Line.first_of_empty h, hm]; rfl

theorem SessState.pollMsg_of_silent {st : SessState} (h : st.polls = false) : st.pollMsg = none := by
  cases st
  case listening | standby | rampWait | ramping | on => cases h
  all_goals rfl

theorem SessState.pollMsg_of_open {st : SessState} (h : st.isOpen = true) : st.pollMsg = some .poll := by
  rcases SessState.isOpen_iff.1 h with rfl | rfl | rfl | rfl <;> rfl

theorem chooseNew_of_silent (h : (s.lineOf k).Empty) (hp : byPoll = false ∨ (s.sessOf k).state.polls = false) :
    s.chooseNew k byPoll = none := by
  unfold State.chooseNew
  rw [Line.first_of_empty h]
  dsimp only
  rcases hp with rfl | hp
  · rfl
  · rw [SessState.pollMsg_of_silent hp]
    exact ite_self none

/-! ### The choice -/

/-- A frame with message `m` waits for the poll timer, its retries exhausted (R107). -/
def Line.Waits (l : Line) (m : DownMsg) : Prop := ∃ f b, l.pendingFrame = some ⟨f, .waits, b⟩ ∧ f.msg = m

/-- The pending frame `f` goes again: its message stands, or it waits, and the link is LOST or the poll timer asks for it
(R100, R104, R107). -/
def State.GoesAgain (s : State) (k : Slot) (byPoll : Bool) (f : Frame) (b : Bool) : Prop :=
  (s.lineOf k).pendingFrame = some ⟨f, .stands, b⟩ ∨
    ((s.lineOf k).pendingFrame = some ⟨f, .waits, b⟩ ∧ ((s.lineOf k).lost = true ∨
      ((s.lineOf k).Empty ∧ byPoll = true ∧
        (((s.sessOf k).state = .listening ∧ f.msg = .probe) ∨ ((s.sessOf k).state.isOpen = true ∧ f.msg = .poll)))))

/-- No pending frame is left to go on with: none is there, its message was removed, or replaced by one that was removed, or it waits
on an UP link (R100). -/
def Line.StartsAnew (l : Line) : Prop :=
  l.pendingFrame = none ∨ (∃ f b, l.pendingFrame = some ⟨f, .removed, b⟩) ∨
    (∃ f b, l.pendingFrame = some ⟨f, .replaced, b⟩ ∧ ∀ c, f.chan = some c → l.chan c = none) ∨
    (l.lost = false ∧ ∃ m, l.Waits m)

theorem chooseFrame_of_waits (hp : (s.lineOf k).pendingFrame = some ⟨f, .waits, b⟩) (hl : (s.lineOf k).lost = false) :
    s.chooseFrame k byPoll = (s.chooseNew k byPoll).map (PendingFrame.againOr ⟨f, .waits, b⟩) := by
  unfold State.chooseFrame; rw [hp, hl]; rfl

theorem PendingFrame.againOr_same {q : PendingFrame} (hc : q.frame.chan = none) (hm : q.frame.msg = p.frame.msg) :
    p.againOr q = ({ p with message := .stands }, false) := if_pos ⟨hc, hm⟩

theorem PendingFrame.againOr_other {q : PendingFrame} (h : q.frame.chan = none → q.frame.msg ≠ p.frame.msg) :
    p.againOr q = (q, true) := if_neg fun ⟨hc, hm⟩ => h hc hm

theorem chooseFrame_of_goesAgain (h : s.GoesAgain k byPoll f b) :
    s.chooseFrame k byPoll = some (⟨f, .stands, b⟩, false) := by
  rcases h with hp | ⟨hp, h⟩
  · unfold State.chooseFrame; rw [hp]
  · cases hl : (s.lineOf k).lost with
    | true => unfold State.chooseFrame; rw [hp, hl]; rfl
    | false =>
      rw [hl] at h
      obtain ⟨hempty, rfl, hasks⟩ := h.resolve_left (by decide)
      have hmsg : (s.sessOf k).state.pollMsg = some f.msg := by
        rcases hasks with ⟨hst, hm⟩ | ⟨hst, hm⟩
        · rw [hst, hm]; rfl
        · rw [SessState.pollMsg_of_open hst, hm]
      rw [chooseFrame_of_waits hp hl, chooseNew_of_poll hempty hmsg, Option.map_some]
      exact congrArg some (PendingFrame.againOr_same rfl rfl)

theorem chooseFrame_of_replaced {c : Channel} (hp : (s.lineOf k).pendingFrame = some ⟨f, .replaced, b⟩) (hc : f.chan = some c)
    (hm : (s.lineOf k).chan c = some m) :
    s.chooseFrame k byPoll = some (freshFrame m (some c) (s.frameTag k), true) := by
  unfold State.chooseFrame
  rw [hp]
  dsimp only
  rw [hc, Option.bind_some, hm]

/-- Where the SLC starts anew, steps 3 and 4 decide; a frame that waits is itself the POLL or PROBE they ask for (R104). -/
theorem chooseFrame_of_startsAnew (h : (s.lineOf k).StartsAnew)
    (hother : ∀ q, s.chooseNew k byPoll = some q → q.frame.chan = none → ¬ (s.lineOf k).Waits q.frame.msg) :
    s.chooseFrame k byPoll = (s.chooseNew k byPoll).map (fun q => (q, true)) := by
  rcases h with hp | ⟨f, b, hp⟩ | ⟨f, b, hp, hgone⟩ | ⟨hl, m, f, b, hp, _⟩
  · unfold State.chooseFrame; rw [hp]
  · unfold State.chooseFrame; rw [hp]
  · have hbind : f.chan.bind (s.lineOf k).chan = none := by
      cases hc : f.chan with
      | none => rfl
      | some c => exact hgone c hc
    unfold State.chooseFrame
    rw [hp]
    dsimp only
    rw [hbind]
    cases f.chan <;> rfl
  · rw [chooseFrame_of_waits hp hl]
    refine Option.map_congr fun q hq => PendingFrame.againOr_other fun hc hm => ?_
    exact hother q hq hc ⟨f, b, hp, hm.symm⟩

/-- The table of a choice made anew: what holds of every new frame that may be chosen holds of the first of session, recall and
claim, and else of what the poll timer asks for; where it asks for nothing, nothing is chosen. -/
theorem startsAnew_table {New : DownMsg → Option Channel → Prop} (h : (s.lineOf k).StartsAnew)
    (hnew : ∀ m c, s.chooseFrame k byPoll = some (freshFrame m c (s.frameTag k), true) → New m c) :
    (∀ m, (s.lineOf k).outSession = some m → New m (some .session)) ∧
    (∀ m, (s.lineOf k).outSession = none → (s.lineOf k).outRecall = some m → New m (some .recall)) ∧
    (∀ m, (s.lineOf k).outSession = none → (s.lineOf k).outRecall = none → (s.lineOf k).outClaim = some m →
      New m (some .claim)) ∧
    ((s.lineOf k).Empty →
      (byPoll = true → (s.sessOf k).state.isOpen = true → ¬ (s.lineOf k).Waits .poll → New .poll none) ∧
      (byPoll = true → (s.sessOf k).state = .listening → ¬ (s.lineOf k).Waits .probe → New .probe none) ∧
      (byPoll = false ∨ (s.sessOf k).state.polls = false → s.chooseFrame k byPoll = none)) := by
  have hchosen : ∀ m c, s.chooseNew k byPoll = some (freshFrame m c (s.frameTag k)) →
      (c = none → ¬ (s.lineOf k).Waits m) → New m c := fun m c hchoice hw => by
    refine hnew m c ?_
    rw [chooseFrame_of_startsAnew h, hchoice]
    · rfl
    · intro q hq hc
      obtain rfl := Option.some.inj (hchoice.symm.trans hq)
      exact hw hc
  have hfirst : ∀ c m, (s.lineOf k).first = some (c, m) → New m (some c) := fun c m hf =>
    hchosen m (some c) (chooseNew_of_first hf) nofun
  refine ⟨fun m hs => hfirst _ m (Line.first_of_session hs), fun m hs hr => hfirst _ m (Line.first_of_recall hs hr),
    fun m hs hr hc => hfirst _ m (Line.first_of_claim hs hr hc), fun hempty => ⟨fun hby hst hw => ?_, fun hby hst hw => ?_,
      fun hsilent => ?_⟩⟩
  · subst hby
    exact hchosen .poll none (chooseNew_of_poll hempty (SessState.pollMsg_of_open hst)) fun _ => hw
  · subst hby
    exact hchosen .probe none (chooseNew_of_poll hempty (by rw [hst]; rfl)) fun _ => hw
  · have hchoice := chooseNew_of_silent hempty hsilent
    rw [chooseFrame_of_startsAnew h, hchoice]
    · rfl
    · intro q hq
      rw [hchoice] at hq; cases hq

/-! ### FRAME_SEND -/

theorem sendFrame_of_choice {e : Nat} (hph : (s.lineOf k).phase = .due e byPoll)
    (h : s.chooseFrame k byPoll = some (p, fresh)) : s.sendFrame k = s.modLine k (Line.send p fresh) := by
  unfold State.sendFrame
  rw [hph]
  dsimp only
  rw [h]

theorem sendFrame_of_rest {e : Nat} (hph : (s.lineOf k).phase = .due e byPoll) (h : s.chooseFrame k byPoll = none) :
    s.sendFrame k = s.modLine k (Line.rest (s.sessOf k).state.polls s.settings.pollPeriod) := by
  unfold State.sendFrame
  rw [hph]
  dsimp only
  rw [h]

/-- A frame that was driven before, and bears the held bit, goes with it again (R104). -/
theorem Line.send_of_sent (h : f.seq = l.seq) : Line.send ⟨f, .stands, true⟩ false l = { l with
    pendingFrame := some ⟨f, .stands, true⟩, seq := f.seq, poll := none, phase := .awaiting f 0, wire := f.bytes } := by
  rw [h]; rfl

/-- The resting line keeps a frame that waits, and starts its poll timer where it polls (R102, R104). -/
theorem Line.rest_eq (polls : Bool) (period : Nat) (l : Line) : Line.rest polls period l = { l with
    phase := .idle
    poll := if polls = true ∧ l.poll = none then some period else l.poll
    pendingFrame := match l.pendingFrame with
      | some ⟨f, .waits, b⟩ => some ⟨f, .waits, b⟩
      | _ => none } := by
  have hpending : l.pendingFrame.filter PendingFrame.waiting = (match l.pendingFrame with
      | some ⟨f, .waits, b⟩ => some ⟨f, .waits, b⟩
      | _ => none) := by
    rcases l.pendingFrame with _ | ⟨f, w, b⟩
    · rfl
    · cases w <;> rfl
  unfold Line.rest
  rw [hpending]
  simp only [Bool.and_eq_true, Option.isNone_iff_eq_none]

theorem modLine_rest {polls : Bool} : s.modLine k (Line.rest polls n) = { s with line := s.line.set k { s.lineOf k with
    phase := .idle
    poll := if polls = true ∧ (s.lineOf k).poll = none then some n else (s.lineOf k).poll
    pendingFrame := match (s.lineOf k).pendingFrame with
      | some ⟨f, .waits, b⟩ => some ⟨f, .waits, b⟩
      | _ => none } } :=
  congrArg (fun x => { s with line := s.line.set k x }) (Line.rest_eq ..)

/-- Settles O21: the three ways of R100 to choose a frame, and how the chosen frame is driven. -/
theorem theNextFrameIsChosenInOrder : Obligations.TheNextFrameIsChosenInOrder := by
  unfold Obligations.TheNextFrameIsChosenInOrder
  intro k s e byPoll hd hph l tag goes new empty again waits
  rw [exec_frameSend hd]
  have hnew : ∀ m c, s.chooseFrame k byPoll = some (freshFrame m c (s.frameTag k), true) →
      Host.Outcome.next (s.sendFrame k) = new m c := fun m c h => by
    rw [sendFrame_of_choice hph h]; rfl
  refine ⟨fun f hagain hseq => ?_, fun f hagain => ?_, fun f b c m hp hc hm => hnew m (some c) (chooseFrame_of_replaced hp hc hm),
    fun hanew => ?_⟩
  · rw [sendFrame_of_choice hph (chooseFrame_of_goesAgain hagain)]
    exact congrArg (fun x => Host.Outcome.next { s with line := s.line.set k x }) (Line.send_of_sent hseq)
  · rw [sendFrame_of_choice hph (chooseFrame_of_goesAgain hagain)]; rfl
  · obtain ⟨hsession, hrecall, hclaim, hempty⟩ :=
      startsAnew_table (New := fun m c => Host.Outcome.next (s.sendFrame k) = new m c) hanew hnew
    refine ⟨hsession, hrecall, hclaim, fun hs hr hc => ?_⟩
    obtain ⟨hpoll, hprobe, hnone⟩ := hempty ⟨hs, hr, hc⟩
    exact ⟨hpoll, hprobe, fun hsilent =>
      ⟨_, congrArg Host.Outcome.next ((sendFrame_of_rest hph (hnone hsilent)).trans modLine_rest), rfl⟩⟩

end Sys2Proof.Machine
end

section
/-! PROOFS. The judgment of a response byte by byte, and what follows a failed attempt: a retry, a frame given up, or retries exhausted
(R101, R102, R107 to R109). -/

namespace Sys2Proof.Machine

variable {s : State} {k : Slot} {l : Line} {kind : FailKind} {n : Nat}

/-! ### The checks of R101 -/

/-- The lengths that R98 gives the six kinds, byte 8 of a payload being byte 11 of its response. -/
theorem upLength_of_kind {c : Nat} {bytes : List Byte} {len : Nat} (h : ¬ (c < 0x40 ∨ 0x45 < c)) :
    ∃ r, upLength c ((bytes.drop 3).take len) = some r ∧
      (len ≠ r ↔ (c = 0x40 ∧ len ≠ 0) ∨ (c = 0x41 ∧ len ≠ 9 + 2 * (bytes[11]?.getD 0).toNat) ∨ (c = 0x42 ∧ len ≠ 2) ∨
        (0x43 ≤ c ∧ len ≠ 1)) := by
  have hcount : len ≠ 9 + 2 * (((bytes.drop 3).take len)[8]?.getD 0).toNat ↔ len ≠ 9 + 2 * (bytes[11]?.getD 0).toNat := by
    by_cases hlen : 8 < len
    · rw [List.getElem?_take_of_lt hlen, List.getElem?_drop]
    · exact ⟨fun _ => by omega, fun _ => by omega⟩
  have hc : c = 0x40 ∨ c = 0x41 ∨ c = 0x42 ∨ c = 0x43 ∨ c = 0x44 ∨ c = 0x45 := by omega
  rcases hc with rfl | rfl | rfl | rfl | rfl | rfl
  case inr.inl => exact ⟨_, rfl, by rw [hcount]; simp⟩
  all_goals exact ⟨_, rfl, by simp⟩

theorem upLength_eq_none {c : Nat} {payload : List Byte} (h : c < 0x40 ∨ 0x45 < c) : upLength c payload = none := by
  unfold upLength
  split
  case h_7 => rfl
  all_goals omega

/-- The echo check reads bit 7 of its byte (R101). -/
theorem badEcho_iff {x : Byte} {seq : Bool} : (if seq = true then x.toNat < 128 else 128 ≤ x.toNat) ↔ x.getLsbD 7 ≠ seq := by
  have hbit : x.getLsbD 7 = decide (128 ≤ x.toNat) := (BitVec.msb_eq_getLsbD_last x).symm.trans (BitVec.msb_eq_decide x)
  rw [hbit]
  cases seq <;> simp

/-- The first check that fails gives the kind of the judgment (R101): one check of either list after the other. -/
theorem judge_of_fails {f : Frame} {bytes : List Byte} {low : Bool} (h : f.ResponseFails bytes low kind) :
    judge f bytes low = .failed kind := by
  unfold Frame.ResponseFails at h
  unfold judge lengthField
  dsimp only at h ⊢
  split at h
  · rw [if_pos ‹_›, h]
  rw [if_neg ‹_›]
  split at h
  · exact h.elim
  rw [if_neg ‹_›]
  split at h
  · rw [if_pos ‹_›, h]
  rw [if_neg ‹_›]
  split at h
  · exact h.elim
  rename_i hshort
  rw [if_neg hshort]
  split at h
  · rename_i hcrc
    rw [if_pos (fun hc => hcrc (congrArg BitVec.toNat hc)), h]
  rename_i hcrc
  rw [if_neg (fun hc => hcrc fun ht => hc (BitVec.eq_of_toNat_eq ht))]
  split at h
  · rename_i hkind
    rw [upLength_eq_none hkind, h]
  rename_i hkind
  obtain ⟨r, hr, hlen⟩ := upLength_of_kind (bytes := bytes) (len := (bytes[2]?.getD 0).toNat % 32) hkind
  rw [hr]
  dsimp only
  split at h
  · rename_i hbad
    rw [if_pos (hlen.2 hbad), h]
  rename_i hgood
  rw [if_neg (mt hlen.1 hgood)]
  split at h
  · rename_i htag
    rw [if_pos, h]
    exact ⟨fun hc => htag.1 (congrArg BitVec.toNat hc), fun ⟨hk, hc⟩ => htag.2 ⟨hk, congrArg BitVec.toNat hc⟩⟩
  rename_i htag
  rw [if_neg]
  swap
  · exact fun ⟨hc, hk⟩ => htag ⟨fun ht => hc (BitVec.eq_of_toNat_eq ht), fun ⟨hh, ht⟩ => hk ⟨hh, BitVec.eq_of_toNat_eq ht⟩⟩
  simp only [badEcho_iff] at h
  split at h
  · rw [if_pos ‹_›, h]
  · exact h.elim

/-! ### The line after a judgment -/

theorem Line.outboxEmpty_iff : l.outboxEmpty = true ↔ l.Empty := by
  unfold Line.outboxEmpty Line.Empty
  simp only [Bool.and_eq_true, Option.isNone_iff_eq_none, and_assoc]

theorem Line.kick_of_lost (h : l.lost = true) : l.kick = l := if_pos (by rw [h, Bool.true_or])

theorem Line.kick_of_message (h : ¬ l.Empty) (hl : l.lost = false) (hp : l.phase = .idle) :
    l.kick = { l with phase := .due 0 false, poll := none } := by
  unfold Line.kick
  rw [if_neg, hp]
  rw [Bool.or_eq_true, Line.outboxEmpty_iff, hl]
  rintro (hc | hc)
  · cases hc
  · exact h hc

theorem Line.next_of_empty {polls : Bool} (h : l.Empty) :
    Line.next polls n l = if polls = true then { l with phase := .idle, poll := some n } else { l with phase := .idle } :=
  if_pos (Line.outboxEmpty_iff.2 h)

theorem Line.next_of_message {polls : Bool} (h : ¬ l.Empty) : Line.next polls n l = Line.kick { l with phase := .idle } :=
  if_neg (mt Line.outboxEmpty_iff.1 h)

/-- The table of the line's going on: the poll timer where the outbox is empty, else a frame due, unless the link is LOST (R100, R102). -/
theorem Line.next_table {polls : Bool} {P : Line → Prop} (h : P (Line.next polls n l)) :
    (l.Empty → polls = true → P { l with phase := .idle, poll := some n }) ∧
    (l.Empty → ¬ polls = true → P { l with phase := .idle }) ∧
    (¬ l.Empty → l.lost = false → P { l with phase := .due 0 false, poll := none }) ∧
    (¬ l.Empty → l.lost = true → P { l with phase := .idle }) := by
  refine ⟨fun he hp => ?_, fun he hp => ?_, fun he hl => ?_, fun he hl => ?_⟩
  · rw [Line.next_of_empty he, if_pos hp] at h; exact h
  · rw [Line.next_of_empty he, if_neg hp] at h; exact h
  · rw [Line.next_of_message he, Line.kick_of_message (l := { l with phase := .idle }) he hl rfl] at h; exact h
  · rw [Line.next_of_message he, Line.kick_of_lost (l := { l with phase := .idle }) hl] at h; exact h

theorem Line.retry_of_removed {polls : Bool} {f : Frame} {b : Bool} (h : l.pendingFrame = some ⟨f, .removed, b⟩) :
    Line.retry polls n l = Line.next polls n { l with pendingFrame := none } := by
  unfold Line.retry Line.messageGone
  rw [h]; rfl

theorem Line.retry_of_not_removed {polls : Bool} (h : ∀ f b, l.pendingFrame ≠ some ⟨f, .removed, b⟩) :
    Line.retry polls n l = { l with
      retries := l.retries + 1, phase := .due 0 false, poll := if polls && l.outboxEmpty then some n else l.poll } := by
  have hgone : l.messageGone = false := by
    unfold Line.messageGone
    rcases hp : l.pendingFrame with _ | ⟨f, w, b⟩
    · rfl
    · cases w
      case removed => exact absurd hp (h f b)
      all_goals rfl
  exact if_neg (by rw [hgone]; decide)

/-- The table of a retry: the poll timer starts where the outbox is empty and the slot polls (R102, R107). -/
theorem Line.retry_table {polls : Bool} {P : Line → Prop} (h : ∀ f b, l.pendingFrame ≠ some ⟨f, .removed, b⟩)
    (hP : P (Line.retry polls n l)) :
    (l.Empty → polls = true → P { l with retries := l.retries + 1, phase := .due 0 false, poll := some n }) ∧
    (¬ l.Empty ∨ ¬ polls = true → P { l with retries := l.retries + 1, phase := .due 0 false }) := by
  rw [Line.retry_of_not_removed h] at hP
  refine ⟨fun he hp => ?_, fun hno => ?_⟩
  · rw [if_pos (Bool.and_eq_true_iff.2 ⟨hp, Line.outboxEmpty_iff.2 he⟩)] at hP; exact hP
  · rw [if_neg] at hP
    · exact hP
    · rw [Bool.and_eq_true, Line.outboxEmpty_iff]
      exact fun ⟨hp, he⟩ => hno.elim (fun hn => hn he) fun hn => hn hp

/-! ### A failed attempt -/

theorem perSlot_set_set {α : Type} (v : PerSlot α) (k : Slot) (x y : α) : (v.set k x).set k y = v.set k y := by
  fin_cases k <;> rfl

theorem modLine_modLine (f g : Line → Line) : (s.modLine k f).modLine k g = s.modLine k (fun l => g (f l)) := by
  unfold State.modLine
  rw [PerSlot.get_set_self, perSlot_set_set]

/-- The line with a failed attempt of kind `kind` counted (R101). -/
def Line.counted (kind : FailKind) (l : Line) : Line := { l with counters := l.counters.bump kind }

/-- The line in phase `x`. -/
def Line.inPhase (x : LinePhase) (l : Line) : Line := { l with phase := x }

theorem failAttempt_eq : s.failAttempt k kind =
    match (s.lineOf k).pendingFrame with
    | none => s.modLine k (fun l => Line.next (s.sessOf k).state.polls s.settings.pollPeriod (l.counted kind))
    | some _ =>
      if (s.lineOf k).lost = true then
        s.modLine k (fun l => { l.counted kind with phase := .idle, poll := some s.settings.pollPeriod })
      else if (s.lineOf k).retries < s.settings.lineRetries then
        s.modLine k (fun l => Line.retry (s.sessOf k).state.polls s.settings.pollPeriod (l.counted kind))
      else (s.modLine k (Line.counted kind)).exhausted k := by
  have hline : (s.modLine k (Line.counted kind)).lineOf k = (s.lineOf k).counted kind := by
    rw [State.lineOf_modLine, if_pos rfl]
  show (match ((s.modLine k (Line.counted kind)).lineOf k).pendingFrame with
    | none => (s.modLine k (Line.counted kind)).modLine k _
    | some _ => if ((s.modLine k (Line.counted kind)).lineOf k).lost = true then _
      else if ((s.modLine k (Line.counted kind)).lineOf k).retries < _ then _ else _) = _
  rw [hline, modLine_modLine, modLine_modLine, modLine_modLine]
  rfl

theorem failAttempt_of_none (hp : (s.lineOf k).pendingFrame = none) : s.failAttempt k kind =
    s.modLine k (fun l => Line.next (s.sessOf k).state.polls s.settings.pollPeriod (l.counted kind)) := by
  rw [failAttempt_eq, hp]

theorem failAttempt_of_lost (hp : (s.lineOf k).pendingFrame.isSome = true) (hl : (s.lineOf k).lost = true) :
    s.failAttempt k kind =
      s.modLine k (fun l => { l.counted kind with phase := .idle, poll := some s.settings.pollPeriod }) := by
  obtain ⟨p, hp⟩ := Option.isSome_iff_exists.1 hp
  rw [failAttempt_eq, hp]
  exact if_pos hl

theorem failAttempt_of_retry (hp : (s.lineOf k).pendingFrame.isSome = true) (hl : (s.lineOf k).lost = false)
    (hr : (s.lineOf k).retries < s.settings.lineRetries) : s.failAttempt k kind =
      s.modLine k (fun l => Line.retry (s.sessOf k).state.polls s.settings.pollPeriod (l.counted kind)) := by
  obtain ⟨p, hp⟩ := Option.isSome_iff_exists.1 hp
  rw [failAttempt_eq, hp]
  exact (if_neg (by rw [hl]; decide)).trans (if_pos hr)

theorem failAttempt_of_exhausted (hp : (s.lineOf k).pendingFrame.isSome = true) (hl : (s.lineOf k).lost = false)
    (hr : s.settings.lineRetries ≤ (s.lineOf k).retries) :
    s.failAttempt k kind = (s.modLine k (Line.counted kind)).exhausted k := by
  obtain ⟨p, hp⟩ := Option.isSome_iff_exists.1 hp
  rw [failAttempt_eq, hp]
  exact (if_neg (by rw [hl]; decide)).trans (if_neg (Nat.not_lt.2 hr))

/-! ### Retries exhausted -/

theorem exhausted_of_open (h : (s.sessOf k).state.isOpen = true) : s.exhausted k = s.loseLink k := by
  unfold State.exhausted
  rcases SessState.isOpen_iff.1 h with hs | hs | hs | hs <;> rw [hs]

theorem exhausted_of_listening (h : (s.sessOf k).state = .listening) : s.exhausted k = s.modLine k (fun l =>
    Line.next true s.settings.pollPeriod { l with pendingFrame := l.pendingFrame.map PendingFrame.exhaust }) := by
  unfold State.exhausted; rw [h]

theorem exhausted_of_refused (h : (s.sessOf k).state = .rejected ∨ (s.sessOf k).state = .faulted) :
    s.exhausted k = s.modLine k (fun l => { l with
      outSession := none, pendingFrame := none, retries := 0, phase := .idle }) := by
  unfold State.exhausted
  rcases h with h | h <;> rw [h] <;> rfl

/-! ### A frame in flight -/

/-- The frame on the line whose response is awaited or received (R95). -/
def LinePhase.inFlight : LinePhase → Option Frame
  | .awaiting f _ | .receiving f _ => some f
  | .idle | .due _ _ => none

theorem LinePhase.inFlight_of {x : LinePhase} {f : Frame} {e : Nat} (h : x = .awaiting f e ∨ x = .receiving f e) :
    x.inFlight = some f := by
  rcases h with rfl | rfl <;> rfl

theorem responseTimeout_of_inFlight {f : Frame} (h : (s.lineOf k).phase.inFlight = some f) :
    s.responseTimeout k = s.failAttempt k .noResponse := by
  unfold State.responseTimeout
  split
  · rfl
  · rfl
  · rename_i hx; rw [hx] at h; cases h
  · rename_i hx; rw [hx] at h; cases h

/-- A response is judged against the frame in flight (R101). -/
theorem responseComplete_of_inFlight {f : Frame} {bytes : List Byte} {low : Bool} (h : (s.lineOf k).phase.inFlight = some f) :
    (∀ kind, judge f bytes low = .failed kind → s.responseComplete k bytes low = s.failAttempt k kind) ∧
    (∀ m, judge f bytes low = .valid m → s.responseComplete k bytes low = s.acceptResponse k f m) := by
  unfold State.responseComplete
  split
  case h_1 f' _ hp | h_2 f' _ hp =>
    rw [hp] at h
    obtain rfl : f' = f := Option.some.inj h
    exact ⟨fun _ hx => by rw [hx], fun _ hx => by rw [hx]⟩
  case h_3 hp | h_4 hp => rw [hp] at h; cases h

/-- Settles O22: the judgment, then the table of what a failed attempt comes to. -/
theorem aFailedAttemptIsRetriedOrGivenUp : Obligations.AFailedAttemptIsRetriedOrGivenUp := by
  unfold Obligations.AFailedAttemptIsRetriedOrGivenUp
  intro k s f e c kind hd hphase hc n l answers empty polls goesOn
  have hflight := LinePhase.inFlight_of hphase
  have hexec : exec c s = .next (s.failAttempt k kind) := by
    rcases hc with ⟨rfl, rfl⟩ | ⟨bytes, low, rfl, hfails⟩
    · rw [exec_responseTimeout hd, responseTimeout_of_inFlight hflight]
    · rw [exec_responseComplete hd, (responseComplete_of_inFlight hflight).1 kind (judge_of_fails hfails)]
  have hline : (s.lineOf k).counted kind = l := by
    have hbump : n.bump kind = l.counters := by cases kind <;> rfl
    exact congrArg (fun x => { s.lineOf k with counters := x }) hbump
  have hanswers : ∀ g : Line → Line, s.failAttempt k kind = s.modLine k (fun x => g (x.counted kind)) → answers (g l) :=
    fun g hg => by rw [← hline]; exact hexec.trans (congrArg Host.Outcome.next hg)
  have hgoesOn : ∀ x, answers (Line.next (s.sessOf k).state.polls s.settings.pollPeriod x) →
      (x.Empty ↔ empty) → goesOn x := fun x hx he => by
    obtain ⟨h1, h2, h3, h4⟩ := Line.next_table hx
    exact ⟨fun h => h1 (he.2 h), fun h => h2 (he.2 h), fun h => h3 (mt he.1 h), fun h => h4 (mt he.1 h)⟩
  refine ⟨fun hp => hgoesOn l (hanswers _ (failAttempt_of_none hp)) Iff.rfl, fun hp => ⟨fun hl => ?_, fun fr b hl hr hgone => ?_,
    fun hl hr hstays => ?_, fun hl hr => ⟨fun hopen => ?_, fun hlisten fr w b hframe => ?_, fun hrefused => ?_⟩⟩⟩
  · exact hanswers (fun x => { x with phase := .idle, poll := some s.settings.pollPeriod }) (failAttempt_of_lost hp hl)
  · have h := hanswers _ (failAttempt_of_retry hp hl hr)
    rw [Line.retry_of_removed hgone] at h
    exact hgoesOn _ h Iff.rfl
  · exact Line.retry_table hstays (hanswers _ (failAttempt_of_retry hp hl hr))
  · have hlose := exhausted_of_open (s := s.modLine k (Line.counted kind)) hopen
    rw [hexec, failAttempt_of_exhausted hp hl hr, hlose, ← hline]
    unfold State.loseLink
    rw [modLine_modLine]; rfl
  · have hwait := exhausted_of_listening (s := s.modLine k (Line.counted kind)) hlisten
    have h : answers (Line.next true s.settings.pollPeriod { l with
        pendingFrame := l.pendingFrame.map PendingFrame.exhaust }) :=
      hanswers (fun x => Line.next true s.settings.pollPeriod { x with
        pendingFrame := x.pendingFrame.map PendingFrame.exhaust }) (by
          rw [failAttempt_of_exhausted hp hl hr, hwait, modLine_modLine]; rfl)
    rw [hframe, show true = (s.sessOf k).state.polls by rw [hlisten]; rfl] at h
    exact hgoesOn _ h Iff.rfl
  · have hgive := exhausted_of_refused (s := s.modLine k (Line.counted kind)) hrefused
    refine hanswers (fun x => { x with outSession := none, pendingFrame := none, retries := 0, phase := .idle }) ?_
    rw [failAttempt_of_exhausted hp hl hr, hgive, modLine_modLine]

/-! ### The frame that was due and not driven -/

theorem modLine_inPhase {x : LinePhase} {g : Line → Line} (hg : ∀ l, g (l.inPhase x) = g l) :
    (s.modLine k (Line.inPhase x)).modLine k g = s.modLine k g := by
  rw [modLine_modLine]; simp only [hg]

/-- What exhausted retries come to does not depend on the phase in which they are (R107, R108). -/
theorem exhausted_inPhase (x : LinePhase) : (s.modLine k (Line.inPhase x)).exhausted k = s.exhausted k := by
  unfold State.exhausted
  rw [State.sessOf_modLine]
  cases (s.sessOf k).state
  case standby | rampWait | ramping | on =>
    dsimp only
    unfold State.loseLink
    rw [modLine_inPhase fun _ => rfl]; rfl
  all_goals exact modLine_inPhase fun _ => rfl

/-- What a failed attempt comes to does not depend on the phase in which it fails (R107). -/
theorem failAttempt_inPhase (x : LinePhase) : (s.modLine k (Line.inPhase x)).failAttempt k kind = s.failAttempt k kind := by
  have hline : (s.modLine k (Line.inPhase x)).lineOf k = (s.lineOf k).inPhase x := by rw [State.lineOf_modLine, if_pos rfl]
  have hpending : ((s.modLine k (Line.inPhase x)).lineOf k).pendingFrame = (s.lineOf k).pendingFrame := by rw [hline]; rfl
  have hlost : ((s.modLine k (Line.inPhase x)).lineOf k).lost = (s.lineOf k).lost := by rw [hline]; rfl
  have hretries : ((s.modLine k (Line.inPhase x)).lineOf k).retries = (s.lineOf k).retries := by rw [hline]; rfl
  rw [failAttempt_eq, failAttempt_eq, hpending, hlost, hretries]
  cases (s.lineOf k).pendingFrame with
  | none => exact modLine_inPhase fun _ => rfl
  | some p =>
    dsimp only
    refine if_congr Iff.rfl (modLine_inPhase fun _ => rfl) (if_congr Iff.rfl (modLine_inPhase fun _ => rfl) ?_)
    rw [← exhausted_inPhase x (s := s.modLine k (Line.counted kind)), modLine_modLine, modLine_modLine]; rfl

/-- Line `y` has the counters of `x`, its held sequence bit and the bytes last driven. -/
def Line.DrivenAs (x y : Line) : Prop := y.counters = x.counters ∧ y.wire = x.wire ∧ y.seq = x.seq

theorem Line.kick_drivenAs (l : Line) : l.DrivenAs l.kick := by
  unfold Line.kick; split <;> exact ⟨rfl, rfl, rfl⟩

theorem Line.next_drivenAs {polls : Bool} : l.DrivenAs (Line.next polls n l) := by
  unfold Line.next
  dsimp only
  split
  · split <;> exact ⟨rfl, rfl, rfl⟩
  · exact Line.kick_drivenAs { l with phase := .idle }

theorem Line.retry_drivenAs {polls : Bool} : l.DrivenAs (Line.retry polls n l) := by
  unfold Line.retry
  split
  · exact Line.next_drivenAs (l := { l with pendingFrame := none })
  · exact ⟨rfl, rfl, rfl⟩

theorem drivenAs_modLine {g : Line → Line} (h : l.DrivenAs (g (s.lineOf k))) : l.DrivenAs ((s.modLine k g).lineOf k) := by
  rw [State.lineOf_modLine, if_pos rfl]; exact h

theorem drivenAs_exhausted : (s.lineOf k).DrivenAs ((s.exhausted k).lineOf k) := by
  unfold State.exhausted
  cases (s.sessOf k).state
  case standby | rampWait | ramping | on =>
    unfold State.loseLink
    exact drivenAs_modLine (g := fun l => { l with
      lost := true, phase := .idle, grace := some (s.settings.linkGrace * 10), poll := some s.settings.pollPeriod }) ⟨rfl, rfl, rfl⟩
  case listening =>
    exact drivenAs_modLine (Line.next_drivenAs (l := { s.lineOf k with
      pendingFrame := (s.lineOf k).pendingFrame.map PendingFrame.exhaust }))
  all_goals exact drivenAs_modLine ⟨rfl, rfl, rfl⟩

/-- A failed attempt is counted; what was driven stays, and so does the held bit (R101, R104). -/
theorem drivenAs_failAttempt : ((s.lineOf k).counted kind).DrivenAs ((s.failAttempt k kind).lineOf k) := by
  rw [failAttempt_eq]
  split
  · exact drivenAs_modLine Line.next_drivenAs
  · split
    · exact drivenAs_modLine ⟨rfl, rfl, rfl⟩
    · split
      · exact drivenAs_modLine Line.retry_drivenAs
      · have hline : (s.modLine k (Line.counted kind)).lineOf k = (s.lineOf k).counted kind := by
          rw [State.lineOf_modLine, if_pos rfl]
        rw [← hline]
        exact drivenAs_exhausted

/-! ### LINE_GAP_TIMEOUT -/

theorem gapTimeout_of_choice {e : Nat} {byPoll fresh : Bool} {p : PendingFrame} (hph : (s.lineOf k).phase = .due e byPoll)
    (h : s.chooseFrame k byPoll = some (p, fresh)) : s.gapTimeout k = (s.modLine k (fun l => { l with
      pendingFrame := some p, retries := if fresh then 0 else l.retries, poll := none })).failAttempt k .noResponse := by
  unfold State.gapTimeout
  rw [hph]
  dsimp only
  rw [h]

theorem gapTimeout_of_rest {e : Nat} {byPoll : Bool} (hph : (s.lineOf k).phase = .due e byPoll)
    (h : s.chooseFrame k byPoll = none) :
    s.gapTimeout k = s.modLine k (Line.rest (s.sessOf k).state.polls s.settings.pollPeriod) := by
  unfold State.gapTimeout
  rw [hph]
  dsimp only
  rw [h]

/-- The line with frame `p` chosen, as a new choice or to go again (R100). -/
def Line.picked (p : PendingFrame) (fresh : Bool) (l : Line) : Line :=
  { l with pendingFrame := some p, retries := if fresh then 0 else l.retries, poll := none }

/-- The frame that was due fails as the same frame would in flight: its attempt is counted, and nothing is driven (R96, R107). -/
theorem gapTimeout_fails {e : Nat} {byPoll fresh : Bool} {p : PendingFrame} (hd : s.store.startDone = true)
    (hph : (s.lineOf k).phase = .due e byPoll) (h : s.chooseFrame k byPoll = some (p, fresh)) :
    ∃ t : State, exec (.lineGapTimeout k) s = .next t ∧
      exec (.responseTimeout k) { s with
        line := s.line.set k (((s.lineOf k).picked p fresh).inPhase (.awaiting p.frame 0)) } = .next t ∧
      (t.lineOf k).counters.noResponse = min 255 ((s.lineOf k).counters.noResponse + 1) ∧
      (t.lineOf k).wire = (s.lineOf k).wire ∧ (t.lineOf k).seq = (s.lineOf k).seq := by
  have hgap : s.gapTimeout k = (s.modLine k (Line.picked p fresh)).failAttempt k .noResponse := gapTimeout_of_choice hph h
  have hflight : ((s.modLine k (Line.picked p fresh)).modLine k (Line.inPhase (.awaiting p.frame 0))).responseTimeout k =
      s.gapTimeout k := by
    rw [responseTimeout_of_inFlight (f := p.frame), failAttempt_inPhase, hgap]
    rw [State.lineOf_modLine, if_pos rfl]; rfl
  have hline : (s.modLine k (Line.picked p fresh)).lineOf k = (s.lineOf k).picked p fresh := by
    rw [State.lineOf_modLine, if_pos rfl]
  obtain ⟨hcounters, hwire, hseq⟩ := drivenAs_failAttempt (s := s.modLine k (Line.picked p fresh)) (k := k) (kind := .noResponse)
  rw [← hgap, hline] at hcounters hwire hseq
  rw [modLine_modLine] at hflight
  have hexec := exec_responseTimeout (k := k)
    (s := s.modLine k (fun l => (l.picked p fresh).inPhase (.awaiting p.frame 0))) hd
  rw [hflight] at hexec
  exact ⟨s.gapTimeout k, exec_lineGapTimeout hd, hexec, by rw [hcounters]; rfl, hwire, hseq⟩

/-- Settles O23: each choice of R100 fails as a frame in flight, and without a choice the line rests. -/
theorem aMissedGapIsAFailedAttempt : Obligations.AMissedGapIsAFailedAttempt := by
  unfold Obligations.AMissedGapIsAFailedAttempt
  intro k s e byPoll hd hph l fails new empty waits again
  have hnew : ∀ m c, s.chooseFrame k byPoll = some (freshFrame m c (s.frameTag k), true) → new m c := fun m c h =>
    ⟨_, rfl, rfl, rfl, gapTimeout_fails hd hph h⟩
  refine ⟨fun f b hagain => gapTimeout_fails hd hph (chooseFrame_of_goesAgain hagain),
    fun f b c m hp hc hm => hnew m (some c) (chooseFrame_of_replaced hp hc hm), fun hanew => ?_⟩
  obtain ⟨hsession, hrecall, hclaim, hempty⟩ := startsAnew_table (New := new) hanew hnew
  refine ⟨hsession, hrecall, hclaim, fun hs hr hc => ?_⟩
  obtain ⟨hpoll, hprobe, hnone⟩ := hempty ⟨hs, hr, hc⟩
  refine ⟨hpoll, hprobe, fun hsilent => ⟨if (s.sessOf k).state.polls = true ∧ (s.lineOf k).poll = none then
    some s.settings.pollPeriod else (s.lineOf k).poll, ?_⟩⟩
  exact (exec_lineGapTimeout hd).trans (congrArg Host.Outcome.next ((gapTimeout_of_rest hph (hnone hsilent)).trans modLine_rest))

end Sys2Proof.Machine
end

section
/-! PROOFS. A valid response: the bytes a module sends are read as its message, the frame in flight outlives the end of a happening, and
what is delivered leaves its channel and completes its RAISE (R15, R101, R103, R111). -/

namespace Sys2Proof.Machine

variable {s t u : State} {j k : Slot} {l x : Line} {f : Frame} {m : UpMsg} {g : Byte} {e : Entry} {n : Nat}

/-! ### The bytes of a response -/

theorem beWord_wordBytes (w : Word) : beWord (w.extractLsb' 8 8) (w.extractLsb' 0 8) = w :=
  BitVec.extractLsb'_append_extractLsb'_eq_extractLsb' (by decide) |>.trans BitVec.extractLsb'_eq_self

theorem serial_wordBytes (x : BitVec 32) : x.extractLsb' 16 16 ++ x.extractLsb' 0 16 = x :=
  BitVec.extractLsb'_append_extractLsb'_eq_extractLsb' (by decide) |>.trans BitVec.extractLsb'_eq_self

theorem length_flatMap_wordBytes (draws : List Word) : (draws.flatMap wordBytes).length = 2 * draws.length := by
  induction draws with
  | nil => rfl
  | cons w ws ih => rw [List.flatMap_cons, List.length_append, ih, List.length_cons]; show 2 + _ = _; omega

theorem drawsOf_flatMap (draws : List Word) : drawsOf (draws.flatMap wordBytes) = draws := by
  induction draws with
  | nil => rfl
  | cons w ws ih =>
    show beWord (w.extractLsb' 8 8) (w.extractLsb' 0 8) :: drawsOf (ws.flatMap wordBytes) = _
    rw [ih, beWord_wordBytes]

/-- A message whose payload a frame can carry: a HELLO of at most six draws (R78). -/
def UpMsg.Fits (m : UpMsg) : Prop := ∀ kind serial flags pref draws, m = .hello kind serial flags pref draws → draws.length ≤ 6

theorem UpMsg.Fits.length_payload (h : m.Fits) : m.payload.length ≤ 21 := by
  cases m with
  | hello kind serial flags pref draws =>
    have hdraws := h kind serial flags pref draws rfl
    show (draws.flatMap wordBytes).length + 9 ≤ 21
    rw [length_flatMap_wordBytes]; omega
  | none => exact Nat.zero_le _
  | claim | yieldTier | ready | fault => exact Nat.le_of_ble_eq_true rfl

theorem toNat_kindCode (m : UpMsg) : (byteOf m.kindCode).toNat = m.kindCode := by cases m <;> rfl

theorem upLength_payload (h : m.Fits) : upLength m.kindCode m.payload = some m.payload.length := by
  cases m with
  | hello kind serial flags pref draws =>
    have hdraws := h kind serial flags pref draws rfl
    show some (9 + 2 * (byteOf draws.length).toNat) = some ((draws.flatMap wordBytes).length + 9)
    have hbyte : (byteOf draws.length).toNat = draws.length := Nat.mod_eq_of_lt (by omega)
    rw [length_flatMap_wordBytes, hbyte, Nat.add_comm]
  | _ => rfl

theorem upMessage_payload (m : UpMsg) : upMessage m.kindCode m.payload = some m := by
  cases m with
  | hello kind serial flags pref draws =>
    show some (UpMsg.hello (beWord _ _) (beWord _ _ ++ beWord _ _) flags pref (drawsOf (draws.flatMap wordBytes))) = _
    rw [beWord_wordBytes, beWord_wordBytes, beWord_wordBytes, serial_wordBytes, drawsOf_flatMap]
  | _ => rfl

/-- Byte 2 of a frame carries the payload length and the sequence bit (R177). -/
theorem seqLenByte_fields (seq : Bool) {len : Nat} (h : len < 32) :
    (seqLenByte seq len).toNat % 32 = len ∧ (seqLenByte seq len).getLsbD 7 = seq := by
  have hall : ∀ (seq : Bool) (len : Fin 32), (seqLenByte seq len).toNat % 32 = len ∧ (seqLenByte seq len).getLsbD 7 = seq := by
    decide
  exact hall seq ⟨len, h⟩

/-- What a module sends for message `m`, under the frame's tag or a HELLO's tag 0, is judged to be `m` (R101, R103). -/
theorem judge_bytes (hm : m.Fits) (hg : g = f.tag ∨ (g = 0 ∧ m.kindCode = 0x41)) : judge f (m.bytes g f.seq) false = .valid m := by
  have hlen := hm.length_payload
  obtain ⟨hfield, hseq⟩ := seqLenByte_fields f.seq (len := m.payload.length) (by omega)
  have hlength : lengthField (m.bytes g f.seq) = m.payload.length := hfield
  have hbody : (m.body g f.seq).length = 3 + m.payload.length := Nat.add_comm m.payload.length 3
  have hbytes : (m.bytes g f.seq).length = 4 + m.payload.length := by
    unfold UpMsg.bytes
    rw [List.length_append, hbody]; show 3 + _ + 1 = _; omega
  have hpayload : ((m.bytes g f.seq).drop 3).take m.payload.length = m.payload := List.take_left
  have htake : (m.bytes g f.seq).take (3 + m.payload.length) = m.body g f.seq := by rw [← hbody]; exact List.take_left
  have hcrc : (m.bytes g f.seq)[3 + m.payload.length]?.getD 0 = crc8 (m.body g f.seq) := by
    unfold UpMsg.bytes
    rw [← hbody, List.getElem?_concat_length]; rfl
  have hkind : ((m.bytes g f.seq)[0]?.getD 0).toNat = m.kindCode := toNat_kindCode m
  have htag : (m.bytes g f.seq)[1]?.getD 0 = g := rfl
  have hecho : (m.bytes g f.seq)[2]?.getD 0 = seqLenByte f.seq m.payload.length := rfl
  unfold judge
  dsimp only
  rw [hlength, hpayload, htake, hcrc, hkind, htag, hecho, hbytes, upLength_payload hm, upMessage_payload, hseq,
    if_neg (by decide), if_neg (by omega), if_neg (by omega), if_neg (by omega), if_neg (not_not.2 rfl)]
  dsimp only
  rw [if_neg (not_not.2 rfl), if_neg, if_neg (not_not.2 rfl)]
  rintro ⟨hne, hno⟩
  rcases hg with rfl | ⟨rfl, hk⟩
  · exact hne rfl
  · exact hno ⟨hk, rfl⟩

/-! ### The frame in flight at the end of a happening -/

/-- Lines `x` and `y` have the same frame in flight and the same link state. -/
def Line.FliesAs (x y : Line) : Prop := y.phase.inFlight = x.phase.inFlight ∧ y.lost = x.lost

theorem Line.FliesAs.refl (x : Line) : x.FliesAs x := ⟨rfl, rfl⟩

theorem Line.FliesAs.trans {x y z : Line} (h : x.FliesAs y) (g : y.FliesAs z) : x.FliesAs z :=
  ⟨g.1.trans h.1, g.2.trans h.2⟩

theorem Line.kick_fliesAs (x : Line) : x.FliesAs x.kick := by
  unfold Line.kick
  split
  · exact .refl x
  · refine ⟨?_, rfl⟩
    dsimp only
    cases x.phase <;> rfl

theorem Line.queue_fliesAs (c : Channel) (d : DownMsg) (x : Line) : x.FliesAs (x.queue c d) := by
  have hset : x.FliesAs ((x.setChan c (some d)).restand Standing.replace c) := by cases c <;> exact ⟨rfl, rfl⟩
  exact hset.trans (Line.kick_fliesAs _)

theorem Line.queueClaim_fliesAs (d : DownMsg) (x : Line) : x.FliesAs (x.queueClaim d) := by
  unfold Line.queueClaim
  split
  · exact Line.queue_fliesAs ..
  · exact .refl x
  · exact Line.queue_fliesAs ..

theorem Line.removeHold_fliesAs (x : Line) : x.FliesAs x.removeHold := by
  unfold Line.removeHold
  split <;> exact ⟨rfl, rfl⟩

theorem fliesAs_modLine {h : Line → Line} (hh : ∀ x : Line, x.FliesAs (h x)) (j : Slot) :
    (s.lineOf j).FliesAs ((s.modLine k h).lineOf j) := by
  rw [State.lineOf_modLine]
  split
  · subst_vars; exact hh _
  · exact .refl _

theorem recallOn_fliesAs (o : RecallOrigin) (j : Slot) : (s.lineOf j).FliesAs ((s.recallOn k n o).lineOf j) := by
  rcases recallOn_cases (s := s) (k := k) n o with h | ⟨l, v, d, _, h⟩ <;> rw [h]
  · exact .refl _
  · exact fliesAs_modLine (s := s) (Line.queue_fliesAs .recall (.recall v (recallField d))) j

theorem recalls_fliesAs (plan : List (Slot × Nat)) (j : Slot) : (s.lineOf j).FliesAs ((s.recalls plan).lineOf j) := by
  induction plan generalizing s with
  | nil => exact .refl _
  | cons p ps ih => exact (recallOn_fliesAs .preempt j).trans ih

theorem grant_fliesAs (j : Slot) : (s.lineOf j).FliesAs ((s.grant e n).lineOf j) := by
  by_cases hj : j = e.slot
  · subst hj
    cases hl : s.leaseOf e.slot with
    | some y =>
      rw [lineOf_grant, letting_some hl, lineOf_createRaise, if_pos rfl]
      exact Line.queueClaim_fliesAs ..
    | none =>
      obtain ⟨_, _, _, hline, _⟩ := grant_of_no_lease (n := n) hl
      rw [hline]; exact Line.removeHold_fliesAs _
  · obtain ⟨_, _, hline, _⟩ := grant_others (s := s) (n := n) hj
    rw [hline]; exact .refl _

theorem passStep_fliesAs (h : PassStep s t) (j : Slot) : (s.lineOf j).FliesAs (t.lineOf j) := by
  cases h with
  | mark b => exact .refl _
  | grant e n _ _ => exact grant_fliesAs j
  | reclaim e n plan _ => exact recalls_fliesAs plan j
  | unmet =>
    obtain ⟨_, hline, _⟩ := endReclaim_frame (s := s) (n := 3)
    unfold State.lineOf
    rw [hline]; exact .refl _

theorem passSteps_fliesAs (h : PassSteps s t) (j : Slot) : (s.lineOf j).FliesAs (t.lineOf j) := by
  induction h with
  | refl => exact .refl _
  | tail _ hm ih => exact ih.trans (passStep_fliesAs hm j)

/-- The end of a happening queues and removes messages; the frame in flight and the link state stay (R95, R99). -/
theorem finish_fliesAs (j : Slot) : (s.lineOf j).FliesAs (s.finish.lineOf j) := by
  obtain ⟨_, _, hshed⟩ := testShedEnd_frame (s := s)
  obtain ⟨_, _, htest, _⟩ := hshed j
  obtain ⟨_, _, _, _, hhand, _⟩ := handOn_frame (s := State.passes 4 s.testShedEnd)
  have hline : s.finish.lineOf j = (State.passes 4 s.testShedEnd).lineOf j := congrArg (fun v => PerSlot.get v j) hhand
  rw [hline, ← htest]
  exact passSteps_fliesAs (passes_steps 4) j

/-! ### Recovery -/

theorem recoverLink_of_up (h : (s.lineOf k).lost = false) : s.recoverLink k = s := if_neg (by rw [h]; decide)

theorem recoverLink_of_lost (h : (s.lineOf k).lost = true) (hd : s.alloc.passDue = false) :
    s.recoverLink k = State.finish { s with
      line := s.line.set k { s.lineOf k with lost := false, grace := none }
      notices := s.notices.take .linkBack (some k) .none false (s.sessOf k).tag.toNat
      alloc := { s.alloc with passDue := (s.entryOf k).isSome } } := by
  have hdue : (s.alloc.passDue || (s.entryOf k).isSome) = (s.entryOf k).isSome := by rw [hd, Bool.false_or]
  refine (if_pos h).trans (congrArg State.finish ?_)
  exact congrArg (fun b => { s with
      line := s.line.set k { s.lineOf k with lost := false, grace := none }
      notices := s.notices.take .linkBack (some k) .none false (s.sessOf k).tag.toNat
      alloc := { s.alloc with passDue := b } }) hdue

/-- Recovery leaves the frame in flight, on an UP link (R103, R111). -/
theorem recoverLink_inFlight (h : (s.lineOf k).lost = true) (hd : s.alloc.passDue = false) :
    ((s.recoverLink k).lineOf k).phase.inFlight = (s.lineOf k).phase.inFlight ∧ ((s.recoverLink k).lineOf k).lost = false ∧
      (s.recoverLink k).store = s.store := by
  rw [recoverLink_of_lost h hd]
  generalize hu : ({ s with
    line := s.line.set k { s.lineOf k with lost := false, grace := none }
    notices := s.notices.take .linkBack (some k) .none false (s.sessOf k).tag.toNat
    alloc := { s.alloc with passDue := (s.entryOf k).isSome } } : State) = u
  have hline : u.lineOf k = { s.lineOf k with lost := false, grace := none } := by
    rw [← hu]; exact PerSlot.get_set_self ..
  obtain ⟨hphase, hlost⟩ := finish_fliesAs (s := u) k
  obtain ⟨⟨_, _, hstore, _⟩, _⟩ := finish_frame (s := u)
  rw [hline] at hphase hlost
  exact ⟨hphase, hlost, hstore.trans (by rw [← hu])⟩

theorem acceptResponse_recovered (h : (s.recoverLink k).recoverLink k = s.recoverLink k) :
    (s.recoverLink k).acceptResponse k f m = s.acceptResponse k f m := by
  unfold State.acceptResponse; rw [h]

/-! ### Delivery -/

/-- The message of the pending frame stands in channel `c` (R103). -/
def Line.StandsIn (l : Line) (c : Channel) : Prop := ∃ fr b, l.pendingFrame = some ⟨fr, .stands, b⟩ ∧ fr.chan = some c

theorem Line.chan_setChan (c ch : Channel) (d : Option DownMsg) : (l.setChan c d).chan ch = if ch = c then d else l.chan ch := by
  cases c <;> cases ch <;> rfl

/-- What a delivery leaves of the line: the pending frame answered, and all else but the channel its message stood in (R103). -/
theorem Line.delivered_fields (l : Line) : l.delivered.pendingFrame = none ∧ l.delivered.retries = 0 ∧ l.delivered.lost = l.lost ∧
    l.DrivenAs l.delivered := by
  unfold Line.delivered
  split
  · split
    · rename_i c _ _
      cases c <;> exact ⟨rfl, rfl, rfl, rfl, rfl, rfl⟩
    · exact ⟨rfl, rfl, rfl, rfl, rfl, rfl⟩
  · rename_i hp
    exact ⟨hp, rfl, rfl, rfl, rfl, rfl⟩

theorem Line.chan_delivered (ch : Channel) : (l.StandsIn ch → l.delivered.chan ch = none) ∧
    (¬ l.StandsIn ch → l.delivered.chan ch = l.chan ch) := by
  have hout : ∀ v : Line, Line.chan { v with pendingFrame := none, retries := 0 } ch = v.chan ch := fun _ => by cases ch <;> rfl
  unfold Line.delivered
  split
  · rename_i p hp
    rw [hout]
    split
    · rename_i c hs hc
      rw [Line.chan_setChan]
      split
      · rename_i heq
        refine ⟨fun _ => rfl, fun hno => absurd ⟨p.frame, p.sent, ?_, heq ▸ hc⟩ hno⟩
        rw [hp, ← hs]
      · rename_i hne
        refine ⟨fun ⟨fr, b, hfr, hch⟩ => absurd ?_ hne, fun _ => rfl⟩
        obtain rfl := Option.some.inj (hp.symm.trans hfr)
        exact Option.some.inj (hch.symm.trans hc)
    · rename_i hno
      refine ⟨fun ⟨fr, b, hfr, hch⟩ => ?_, fun _ => rfl⟩
      obtain rfl := Option.some.inj (hp.symm.trans hfr)
      exact (hno ch rfl hch).elim
  · rename_i hp
    refine ⟨fun ⟨fr, b, hfr, _⟩ => ?_, fun _ => by cases ch <;> rfl⟩
    rw [hp] at hfr; cases hfr

/-- What going on leaves of the line (R100, R102). -/
theorem Line.next_fields {polls : Bool} : (Line.next polls n l).pendingFrame = l.pendingFrame ∧
    (Line.next polls n l).retries = l.retries ∧ (Line.next polls n l).lost = l.lost ∧
    (Line.next polls n l).chan = l.chan := by
  have hkick : ∀ v : Line, v.kick.pendingFrame = v.pendingFrame ∧ v.kick.retries = v.retries ∧ v.kick.lost = v.lost ∧
      v.kick.chan = v.chan := fun v => by
    unfold Line.kick
    split <;> exact ⟨rfl, rfl, rfl, rfl⟩
  unfold Line.next
  dsimp only
  split
  · split <;> exact ⟨rfl, rfl, rfl, rfl⟩
  · exact hkick { l with phase := .idle }

theorem Line.empty_iff_chan : l.Empty ↔ ∀ ch, l.chan ch = none :=
  ⟨fun ⟨hs, hr, hc⟩ ch => by cases ch; exacts [hs, hr, hc], fun h => ⟨h .session, h .recall, h .claim⟩⟩

/-- The line after a valid response on an UP link: the answered message gone, every other channel as it was, and the next frame due,
or the poll timer started (R100, R102, R103). -/
theorem Line.next_delivered {polls : Bool} (hup : l.lost = false) (hx : Line.next polls n l.delivered = x) :
    (x.pendingFrame = none ∧ x.retries = 0 ∧ x.seq = l.seq ∧ x.counters = l.counters ∧ x.lost = false) ∧
    (∀ ch, (l.StandsIn ch → x.chan ch = none) ∧ (¬ l.StandsIn ch → x.chan ch = l.chan ch)) ∧
    ((∀ ch, x.chan ch = none) → polls = true → x.phase = .idle ∧ x.poll = some n) ∧
    (∀ ch, x.chan ch ≠ none → x.phase = .due 0 false ∧ x.poll = none) := by
  subst hx
  obtain ⟨hpending, hretries, hlost, hcounters, _, hseq⟩ := Line.delivered_fields l
  obtain ⟨npending, nretries, nlost, nchan⟩ := Line.next_fields (polls := polls) (n := n) (l := l.delivered)
  obtain ⟨ncounters, _, nseq⟩ := Line.next_drivenAs (polls := polls) (n := n) (l := l.delivered)
  obtain ⟨hpolls, _, hdue, _⟩ := Line.next_table (P := fun v => Line.next polls n l.delivered = v) (l := l.delivered) rfl
  refine ⟨⟨npending.trans hpending, nretries.trans hretries, nseq.trans hseq, ncounters.trans hcounters,
    nlost.trans (hlost.trans hup)⟩, fun ch => ?_, fun hempty hp => ?_, fun ch hch => ?_⟩
  · rw [nchan]; exact Line.chan_delivered ch
  · rw [nchan] at hempty
    rw [hpolls (Line.empty_iff_chan.2 hempty) hp]
    exact ⟨rfl, rfl⟩
  · rw [nchan] at hch
    rw [hdue (fun hempty => hch (Line.empty_iff_chan.1 hempty ch)) (hlost.trans hup)]
    exact ⟨rfl, rfl⟩

/-! ### The RAISE that a delivery completes -/

theorem completeRaise_of_not {b : Bool} (h : ∀ y up d o, s.leaseOf k = some y → y.trans = some (.raise up d o) → y.tag ≠ g) :
    s.completeRaise k g b = s := by
  unfold State.completeRaise
  split
  · rfl
  · rename_i y hy
    split
    · rename_i up d o hx; exact if_neg (h y up d o hy hx)
    · rfl
    · rfl

/-- A RAISE that completes takes the draw it was to: committed stands (R15). -/
theorem completeRaise_of_raise {y : Lease} {up d : Nat} {o : EntryOrigin} {b : Bool} (hl : s.leaseOf k = some y)
    (hx : y.trans = some (.raise up d o)) (hg : y.tag = g) (hd : y.draw ≤ d) : s.completeRaise k g b = { s with
      alloc := { s.alloc with leases := s.alloc.leases.set k (some { y with tier := up, draw := d, short := b, trans := none }) } } := by
  have hterm : Lease.term (some { y with tier := up, draw := d, short := b, trans := none }) = Lease.term (s.leaseOf k) := by
    rw [hl]
    show max d 0 = max y.draw (Transition.raiseDraw y.trans)
    rw [hx, Nat.max_zero]
    exact (Nat.max_eq_right hd).symm
  unfold State.completeRaise
  rw [hl]
  dsimp only
  rw [hx]
  dsimp only
  rw [if_pos hg, setLease_of_term_eq hterm]

/-- The delivery of a GRANT that stood is reported (R103). -/
theorem reportDelivery_of_grant {fr : Frame} {b short : Bool} {v : Nat} (hp : (s.lineOf k).pendingFrame = some ⟨fr, .stands, b⟩)
    (hm : f.msg = .grant v short) :
    s.reportDelivery k f = (s.modLine k Line.delivered).completeRaise k f.tag short := by
  unfold State.reportDelivery Line.standing
  dsimp only
  rw [hp, hm]; rfl

/-- A delivery that completes no RAISE changes the line alone. -/
theorem reportDelivery_of_plain (h : ∀ fr b v short y up d o, (s.lineOf k).pendingFrame = some ⟨fr, .stands, b⟩ →
    f.msg = .grant v short → s.leaseOf k = some y → y.trans = some (.raise up d o) → y.tag ≠ f.tag) :
    s.reportDelivery k f = s.modLine k Line.delivered := by
  by_cases hgrant : ∃ fr b v short, (s.lineOf k).pendingFrame = some ⟨fr, .stands, b⟩ ∧ f.msg = .grant v short
  · obtain ⟨fr, b, v, short, hp, hm⟩ := hgrant
    rw [reportDelivery_of_grant hp hm]
    exact completeRaise_of_not fun y up d o => h fr b v short y up d o hp hm
  · unfold State.reportDelivery
    dsimp only
    split
    · rename_i v short hstood hm
      refine absurd ?_ hgrant
      unfold Line.standing at hstood
      split at hstood
      · rename_i p hp
        exact ⟨p.frame, p.sent, v, short, by rw [hp, ← eq_of_beq hstood], hm⟩
      · cases hstood
    · rfl

/-- On an UP link a delivery that leaves the state settled ends with the line gone on and the message presented (R103). -/
theorem acceptResponse_of_settled {a : Allocator} (hup : (s.lineOf k).lost = false)
    (hreport : s.reportDelivery k f = { s.modLine k Line.delivered with alloc := a })
    (hsettled : ({ s with alloc := a } : State).Settled) : s.acceptResponse k f m = { s with
      line := s.line.set k (Line.next (s.sessOf k).state.polls s.settings.pollPeriod (s.lineOf k).delivered)
      alloc := a
      raised := s.raised ++ [m.happening k f.tag] } := by
  have hline := congrArg State.line (modLine_modLine (s := s) (k := k) Line.delivered
    (Line.next (s.sessOf k).state.polls s.settings.pollPeriod))
  have hfinish : State.finish { s.modLine k Line.delivered with alloc := a } = { s.modLine k Line.delivered with alloc := a } :=
    finish_of_settled hsettled
  unfold State.acceptResponse
  rw [recoverLink_of_up hup, hreport, hfinish]
  exact congrArg (fun v => { s with line := v, alloc := a, raised := s.raised ++ [m.happening k f.tag] }) hline

/-- Settles O24: recovery first where the link is LOST, then the delivery, with the RAISE it completes. -/
theorem aValidResponseDeliversAndHandsOn : Obligations.AValidResponseDeliversAndHandsOn := by
  unfold Obligations.AValidResponseDeliversAndHandsOn
  intro k s f e m g hd hs hphase hg hfits l c
  have hflight := LinePhase.inFlight_of hphase
  have hjudge := judge_bytes (f := f) hfits hg
  have hexec : ∀ u : State, u.store.startDone = true → (u.lineOf k).phase.inFlight = some f →
      exec c u = .next (u.acceptResponse k f m) := fun u hu hf => by
    rw [exec_responseComplete hu, (responseComplete_of_inFlight hf).2 m hjudge]
  refine ⟨fun hlost => ?_, fun hup =>
    ⟨Line.next (s.sessOf k).state.polls s.settings.pollPeriod l.delivered, ?_, fun hplain => ?_,
      fun fr b v short y up d o hp hm hl hx hg' hle => ?_⟩⟩
  · obtain ⟨rflight, rup, rstore⟩ := recoverLink_inFlight hlost hs.1
    have hrecover := recoverLink_of_lost hlost hs.1
    refine Eq.trans ?_ (congrArg (exec c) hrecover)
    rw [hexec s hd hflight, hexec _ (by rw [rstore]; exact hd) (rflight.trans hflight),
      acceptResponse_recovered (recoverLink_of_up rup)]
  · obtain ⟨⟨hpending, hretries, hseq, hcounters, hlost⟩, hchan, hpolls, hdue⟩ := Line.next_delivered
      (polls := (s.sessOf k).state.polls) (n := s.settings.pollPeriod) hup rfl
    exact ⟨hpending, hretries, hseq, hcounters, hlost, fun ch => (hchan ch).1,
      fun ch hno => (hchan ch).2 fun ⟨fr, b, hfr, hch⟩ => hno fr b hfr hch, hpolls, hdue⟩
  · exact (hexec s hd hflight).trans (congrArg Host.Outcome.next
      (acceptResponse_of_settled (a := s.alloc) hup (reportDelivery_of_plain hplain) hs))
  · refine (hexec s hd hflight).trans (congrArg Host.Outcome.next (acceptResponse_of_settled hup ?_ hs))
    rw [reportDelivery_of_grant hp hm]
    exact completeRaise_of_raise (s := s.modLine k Line.delivered) hl hx hg' hle

end Sys2Proof.Machine
end

section
/-! PROOFS. The ramp sequencer: a ramp starts, succeeds, is retried or fails, and a slot rejoins the Ramp Queue (R117 to R122). -/

namespace Sys2Proof.Machine

variable {s : State} {k : Slot} {l : Lease} {c : Reason}

/-! ### The commands of the ramp sequencer -/

theorem exec_rampStart (hd : s.store.startDone = true) : exec .rampStart s = .next s.handOn :=
  congrArg Host.Outcome.next (if_pos hd)

theorem exec_rampDone {g : Byte} (hd : s.store.startDone = true) :
    exec (.rampDone k g) s = .next ((s.taken (.rampDone k g)).rampDone k g) :=
  congrArg Host.Outcome.next (if_pos hd)

theorem exec_rampTimeout (hd : s.store.startDone = true) : exec (.rampTimeout k) s = .next (s.rampTimedOut k) :=
  congrArg Host.Outcome.next (if_pos hd)

theorem exec_backoffEnd (hd : s.store.startDone = true) : exec (.backoffEnd k) s = .next (s.backoffEnded k) :=
  congrArg Host.Outcome.next (if_pos hd)

theorem rampDone_of_other {g : Byte} (h : ¬ ((s.rampOf k).state = .ramping ∧ (s.rampOf k).tag = g)) : s.rampDone k g = s :=
  if_neg h

theorem rampDone_of_own {g : Byte} (hr : (s.rampOf k).state = .ramping) (hg : (s.rampOf k).tag = g) :
    s.rampDone k g = (s.completeRamp k).finish := if_pos ⟨hr, hg⟩

theorem rampTimedOut_of_retry (hr : (s.rampOf k).state = .ramping) (hn : (s.rampOf k).retry < s.settings.rampRetries) :
    s.rampTimedOut k = (s.backOff k).finish := by
  unfold State.rampTimedOut; rw [if_pos hr, if_pos hn]

theorem rampTimedOut_of_last (hr : (s.rampOf k).state = .ramping) (hn : s.settings.rampRetries ≤ (s.rampOf k).retry) :
    s.rampTimedOut k = (s.faultSlot k .rampFail).finish := by
  unfold State.rampTimedOut; rw [if_pos hr, if_neg (Nat.not_lt.2 hn)]

theorem backoffEnded_of_backoff (hr : (s.rampOf k).state = .backoff) : s.backoffEnded k = (s.joinRamp k).finish := if_pos hr

/-! ### What the sequencer leaves alone -/

/-- The Ramp Queue and the ramp resource belong to no slot's own record. -/
theorem onlyAt_path {q : List Slot} {h : Option Slot} :
    State.OnlyAt k s { s with power := { s.power with queue := q, holder := h } } :=
  ⟨⟨rfl, rfl, rfl, rfl, rfl⟩, fun _ _ => ⟨rfl, rfl, rfl, rfl, rfl, rfl⟩, rfl, rfl, rfl, rfl, rfl⟩

theorem onlyAt_freeResource : State.OnlyAt k s (s.freeResource k) := onlyAt_path

theorem onlyAt_queueRampGrant : State.OnlyAt k s (s.queueRampGrant k) := by
  unfold State.queueRampGrant
  split
  · exact .refl _ _
  · exact onlyAt_modLine

theorem onlyAt_startRamp : State.OnlyAt k s (s.startRamp k) := by
  unfold State.startRamp
  exact ((onlyAt_path.trans onlyAt_modRamp).trans onlyAt_modMon).trans onlyAt_modSess

theorem onlyAt_completeRamp : State.OnlyAt k s (s.completeRamp k) :=
  (((onlyAt_modRamp.trans onlyAt_freeResource).trans onlyAt_modMon).trans onlyAt_modSess).trans onlyAt_queueRampGrant

theorem onlyAt_backOff : State.OnlyAt k s (s.backOff k) :=
  (((onlyAt_modRamp.trans onlyAt_freeResource).trans onlyAt_modMon).trans onlyAt_modSess).trans onlyAt_post

theorem onlyAt_joinRamp : State.OnlyAt k s (s.joinRamp k) := onlyAt_path.trans onlyAt_modRamp

/-! ### Ramp start -/

/-- Settles O10: the handing on changes nothing but the head's own records, the queue and the resource. -/
theorem theHeadOfTheRampQueueRamps : Obligations.TheHeadOfTheRampQueueRamps := by
  unfold Obligations.TheHeadOfTheRampQueueRamps
  intro s hd
  rw [exec_rampStart hd]
  refine ⟨fun hbusy => by rw [handOn_of_busy hbusy], fun k rest hfree hclear hq hk => ?_⟩
  have honly := onlyAt_startRamp (s := s) (k := k)
  have hhold : (s.startRamp k).power.hold = false := honly.hold.trans hclear
  refine ⟨s.startRamp k, by rw [handOn_of_free hfree hclear hq], ?_, rfl, hhold, ?_, ?_, ?_, rfl, rfl, rfl, rfl, honly.host,
    honly.others⟩
  · rw [startRamp_eq hq hk]
  · rw [rampOf_startRamp, if_pos rfl]
  · rw [startRamp_eq hq hk]
    exact PerSlot.get_set_self _ _ _
  · rw [sessOf_startRamp, if_pos rfl]

/-! ### Ramp done -/

/-- The end of a ramp with success disarms the watch and posts no notice (R120, R130). -/
theorem completeRamp_watch : (s.completeRamp k).monOf k = { s.monOf k with watchArmed := false } ∧
    (s.completeRamp k).notices = s.notices := by
  unfold State.completeRamp State.queueRampGrant
  split <;> exact ⟨PerSlot.get_set_self _ _ _, rfl⟩

theorem lineOf_queueRampGrant (hl : s.leaseOf k = some l) :
    (s.queueRampGrant k).lineOf k = (s.lineOf k).queueClaim (.grant l.tier l.short) := by
  unfold State.queueRampGrant
  rw [hl, State.lineOf_modLine, if_pos rfl]

/-- A lease that turns ON has its GRANT queued (R11). -/
theorem lineOf_completeRamp (hl : s.leaseOf k = some l) :
    (s.completeRamp k).lineOf k = (s.lineOf k).queueClaim (.grant l.tier l.short) := by
  unfold State.completeRamp
  exact lineOf_queueRampGrant hl

/-- Settles O11: a report of another ramp is only taken; the slot's own report completes its ramp. -/
theorem rampDoneTurnsTheLeaseOn : Obligations.RampDoneTurnsTheLeaseOn := by
  unfold Obligations.RampDoneTurnsTheLeaseOn
  intro k g s hd
  generalize hc : Instr.rampDone k g = c
  have hexec : exec c s = .next ((s.taken c).rampDone k g) := by rw [← hc, exec_rampDone hd]
  rw [hexec]
  refine ⟨fun hother => by rw [rampDone_of_other (s := s.taken c) hother]; rfl, fun hr hg => ?_⟩
  have honly := onlyAt_completeRamp (s := s.taken c) (k := k)
  obtain ⟨hsess, hpower⟩ := completeRamp_parts (s := s.taken c) (k := k)
  obtain ⟨halloc, _⟩ := completeRamp_same (s.taken c) k
  obtain ⟨hmon, hnotices⟩ := completeRamp_watch (s := s.taken c) (k := k)
  refine ⟨(s.taken c).completeRamp k, by rw [rampDone_of_own (s := s.taken c) hr hg], ?_, ?_, ?_, hmon, ?_, fun l hl => ?_,
    halloc, hnotices, honly.raised, honly.host, honly.others⟩
  · unfold State.rampOf; rw [hpower]; exact PerSlot.get_set_self _ _ _
  · rw [hpower]; rfl
  · rw [hpower]; rfl
  · unfold State.sessOf; rw [hsess]; exact PerSlot.get_set_self _ _ _
  · rw [lineOf_completeRamp (s := s.taken c) hl]; exact Line.queueClaim_grant _ _ _

/-! ### Ramp timeout -/

/-- The entry to FAULTED ends the session after the drop of the lease, with FAULTED and SESSION_CLOSED (R92). -/
theorem torn_faultSlot : s.Torn (s.faultSlot k c) k c .faulted
    ((s.notices.take .faulted (some k) c false (s.grantedTier k)).take .sessionClosed (some k) c false
      (s.sessOf k).tag.toNat) := by
  rw [← dropLease_notices (s := s) (k := k)]
  exact unleased_dropLease.torn.post.post

/-! ### The end of a back-off -/

/-- Where a slot joins the Ramp Queue: a DEFERRABLE one at its end, an ESSENTIAL one between the ESSENTIAL slots it finds ahead of the
first DEFERRABLE one and that one (R117). -/
theorem rampInsert_split (cls : Slot → PowerClass) (k : Slot) (c : PowerClass) (q : List Slot) :
    ∃ ahead behind, q = ahead ++ behind ∧ rampInsert cls k c q = ahead ++ k :: behind ∧
      (c = .deferrable → behind = []) ∧
      (c = .essential → (∀ j ∈ ahead, cls j = .essential) ∧ ∀ j, behind.head? = some j → cls j = .deferrable) := by
  induction q with
  | nil => exact ⟨[], [], rfl, rfl, fun _ => rfl, fun _ => ⟨by simp, by simp⟩⟩
  | cons i q ih =>
    unfold rampInsert
    split
    · rename_i hbefore
      obtain ⟨hc, hi⟩ := hbefore
      exact ⟨[], i :: q, rfl, rfl, fun hd => (by rw [hc] at hd; cases hd),
        fun _ => ⟨by simp, fun j hj => by cases hj; exact hi⟩⟩
    · rename_i hbehind
      obtain ⟨ahead, behind, rfl, hjoin, hdef, hess⟩ := ih
      refine ⟨i :: ahead, behind, rfl, by rw [hjoin]; rfl, hdef, fun hc => ?_⟩
      obtain ⟨hahead, hhead⟩ := hess hc
      have hi : cls i = .essential := by
        by_contra hne
        exact hbehind ⟨hc, PowerClass.eq_of_ne_essential hne⟩
      exact ⟨List.forall_mem_cons.2 ⟨hi, hahead⟩, hhead⟩

/-- Settles O12: a retry changes the slot's own records, a failure is the entry to FAULTED, and the slot rejoins by its class. -/
theorem aTimedOutRampIsRetriedOrFailed : Obligations.ATimedOutRampIsRetriedOrFailed := by
  unfold Obligations.ATimedOutRampIsRetriedOrFailed
  intro k s hd
  rw [exec_rampTimeout hd, exec_backoffEnd hd]
  refine ⟨fun hr hretry => ?_, fun hr hlast hl => ?_, fun hr _ => ?_⟩
  · have honly := onlyAt_backOff (s := s) (k := k)
    exact ⟨s.backOff k, by rw [rampTimedOut_of_retry hr hretry], PerSlot.get_set_self _ _ _, rfl, rfl, PerSlot.get_set_self _ _ _,
      PerSlot.get_set_self _ _ _, rfl, rfl, rfl, honly.host, honly.others, honly.raised⟩
  · have htorn := torn_faultSlot (s := s) (k := k) (c := .rampFail)
    exact ⟨_, by rw [rampTimedOut_of_last hr hlast], htorn.ended, htorn.gone hl, htorn.due, htorn.notices, htorn.only.host,
      htorn.only.others, htorn.only.raised⟩
  · have honly := onlyAt_joinRamp (s := s) (k := k)
    obtain ⟨ahead, behind, hq, hjoin, hdef, hess⟩ :=
      rampInsert_split (fun j => (s.rampOf j).cls) k (s.rampOf k).cls s.power.queue
    exact ⟨s.joinRamp k, ahead, behind, by rw [backoffEnded_of_backoff hr], by rw [rampOf_joinRamp, if_pos rfl], hq, hjoin, rfl, hdef,
      hess, rfl, rfl, rfl, rfl, rfl, honly.host, honly.others, honly.raised⟩

end Sys2Proof.Machine
end

section
/-! PROOFS. A scan of the Draw Monitor: the kept values, the watches and the overdraw counts of every slot, the sag detector, and the
reports that the scan presents (R128 to R135). -/

namespace Sys2Proof.Machine

variable {s : State} {k : Slot} {m : MonSlot} {b : Nat} {l : Lease}

/-! ### One step at every slot -/

/-- `s` with the monitor records `v` and the happenings `q` raised. -/
def State.withMon (s : State) (v : PerSlot MonSlot) (q : List Instr) : State :=
  { s with mon := { s.mon with slots := v }, raised := q }

/-- Whatever the monitor records are, `f` makes `g` of the record of its slot and presents the report `r`, if any, that it finds due. -/
def State.StepsSlots (s : State) (f : State → Slot → State) (g : Slot → MonSlot → MonSlot) (r : Slot → MonSlot → Option Instr) :
    Prop :=
  ∀ k v q, f (s.withMon v q) k = s.withMon (v.set k (g k (v.get k))) (q ++ (r k (v.get k)).toList)

theorem State.StepsSlots.foldl {f : State → Slot → State} {g : Slot → MonSlot → MonSlot} {r : Slot → MonSlot → Option Instr}
    (h : s.StepsSlots f g r) {ks : List Slot} (hn : ks.Nodup) (v : PerSlot MonSlot) (q : List Instr) : ks.foldl f (s.withMon v q) =
      s.withMon (.tabulate fun k => if k ∈ ks then g k (v.get k) else v.get k) (q ++ ks.filterMap fun k => r k (v.get k)) := by
  induction ks generalizing v q with
  | nil =>
    have hv : v = .tabulate v.get := PerSlot.ext_get fun k => by rw [PerSlot.get_tabulate]
    simp [← hv]
  | cons j js ih =>
    obtain ⟨hj, hjs⟩ := List.nodup_cons.1 hn
    have hothers : ∀ k ∈ js, (v.set j (g j (v.get j))).get k = v.get k := fun k hk =>
      PerSlot.get_set_ne _ _ fun hkj => hj (hkj ▸ hk)
    have hreports : js.filterMap (fun k => r k ((v.set j (g j (v.get j))).get k)) = js.filterMap fun k => r k (v.get k) :=
      List.filterMap_congr fun k hk => by rw [hothers k hk]
    rw [List.foldl_cons, h, ih hjs, hreports]
    congr 1
    · refine PerSlot.ext_get fun k => ?_
      rw [PerSlot.get_tabulate, PerSlot.get_tabulate]
      by_cases hk : k ∈ js
      · rw [if_pos hk, if_pos (List.mem_cons_of_mem _ hk), hothers k hk]
      · rw [if_neg hk, PerSlot.get_set]
        by_cases hkj : k = j <;> simp [hkj, hk]
    · rw [List.filterMap_cons, List.append_assoc]
      cases r j (v.get j) <;> rfl

/-- A step taken at all eight slots. -/
theorem State.StepsSlots.all {f : State → Slot → State} {g : Slot → MonSlot → MonSlot} {r : Slot → MonSlot → Option Instr}
    (h : s.StepsSlots f g r) (v : PerSlot MonSlot) (q : List Instr) : allSlots.foldl f (s.withMon v q) =
      s.withMon (.tabulate fun k => g k (v.get k)) (q ++ allSlots.filterMap fun k => r k (v.get k)) := by
  rw [h.foldl (by decide)]
  simp only [mem_allSlots, if_true]

/-! ### The three steps -/

/-- The lease of slot `k` where it is judged against its ceiling: in ON only (R132). -/
def State.judged (s : State) (k : Slot) : Option Lease := if (s.sessOf k).state = .on then s.leaseOf k else none

theorem judged_of_on (hs : (s.sessOf k).state = .on) (hl : s.leaseOf k = some l) : s.judged k = some l := (if_pos hs).trans hl

theorem judged_of_not_on (hs : (s.sessOf k).state ≠ .on) : s.judged k = none := if_neg hs

theorem judged_of_no_lease (h : ∀ l, (s.sessOf k).state = .on → s.leaseOf k = some l → False) : s.judged k = none := by
  unfold State.judged
  split
  · rename_i hs
    exact Option.eq_none_iff_forall_not_mem.2 fun l hl => h l hs hl
  · rfl

/-- The watch after a scan, completed or not (R130). -/
def MonSlot.watched (b : Nat) (m : MonSlot) : MonSlot := if m.goodDue b = true then m.good else m.watch b

/-- The report of a watch that the scan completes (R130). -/
def MonSlot.goodReport (b : Nat) (k : Slot) (m : MonSlot) : Option Instr :=
  if m.goodDue b = true then some (.rampDone k m.watchTag) else none

/-- The record after the overdraw step: the run count, the strike and the clean run (R132 to R134). -/
def State.overdrawn (s : State) (k : Slot) (m : MonSlot) : MonSlot :=
  match s.judged k with
  | none => { m with run := 0 }
  | some l =>
    if l.draw + s.settings.overdrawMargin < m.power then
      if s.settings.overdrawCount ≤ m.run + 1 then { m with run := 0, clean := 0, struck := true }
      else { m with run := m.run + 1, clean := 0 }
    else m.scanBelow

/-- The report of a strike that the scan raises (R133). -/
def State.strikeReport (s : State) (k : Slot) (m : MonSlot) : Option Instr :=
  match s.judged k with
  | none => none
  | some l =>
    if l.draw + s.settings.overdrawMargin < m.power ∧ s.settings.overdrawCount ≤ m.run + 1 then
      some (.overdrawStrike k l.tag (strikeNumber m.struck l.tier))
    else none

theorem stepsSlots_sample (samples : PerSlot Sample) : s.StepsSlots (fun u k => u.modMon k (MonSlot.sample (samples.get k)))
    (fun k => MonSlot.sample (samples.get k)) (fun _ _ => none) := fun k v q => by
  show _ = s.withMon _ (q ++ [])
  rw [List.append_nil]; rfl

theorem stepsSlots_watch (b : Nat) : s.StepsSlots (fun u k => u.stepWatch b k) (fun _ => MonSlot.watched b)
    (MonSlot.goodReport b) := fun k v q => by
  have hmon : (s.withMon v q).monOf k = v.get k := rfl
  unfold State.stepWatch MonSlot.watched MonSlot.goodReport
  dsimp only
  rw [hmon]
  split
  · rfl
  · rw [Option.toList_none, List.append_nil]; rfl

theorem stepOverdraw_of_judged (h : s.judged k = some l) : s.stepOverdraw k =
    if l.draw + s.settings.overdrawMargin < (s.monOf k).power then s.scanAbove k l else s.modMon k MonSlot.scanBelow := by
  unfold State.judged at h
  split at h
  · rename_i hs
    unfold State.stepOverdraw
    rw [hs, h]
  · cases h

theorem stepOverdraw_of_unjudged (h : s.judged k = none) : s.stepOverdraw k = s.modMon k (fun m => { m with run := 0 }) := by
  unfold State.judged at h
  unfold State.stepOverdraw
  split
  · rename_i hs hl
    rw [if_pos hs, hl] at h
    cases h
  · rfl

/-- The overdraw step is the same whatever the scan has made of the monitor records so far. -/
theorem stepsSlots_overdraw : s.StepsSlots (fun u k => u.stepOverdraw k) s.overdrawn s.strikeReport := fun k v q => by
  have hmon : (s.withMon v q).monOf k = v.get k := rfl
  have hset : (s.withMon v q).settings = s.settings := rfl
  unfold State.overdrawn State.strikeReport
  dsimp only
  cases h : s.judged k with
  | none => rw [stepOverdraw_of_unjudged (s := s.withMon v q) h, Option.toList_none, List.append_nil]; rfl
  | some l =>
    rw [stepOverdraw_of_judged (s := s.withMon v q) h, hmon, hset]
    dsimp only
    by_cases hover : l.draw + s.settings.overdrawMargin < (v.get k).power
    · unfold State.scanAbove
      rw [if_pos hover, if_pos hover, hmon, hset]
      dsimp only
      by_cases hdue : s.settings.overdrawCount ≤ (v.get k).run + 1
      · rw [if_pos hdue, if_pos hdue, if_pos ⟨hover, hdue⟩]; rfl
      · rw [if_neg hdue, if_neg hdue, if_neg fun h => hdue h.2, Option.toList_none, List.append_nil]; rfl
    · rw [if_neg hover, if_neg hover, if_neg fun h => hover h.1, Option.toList_none, List.append_nil]; rfl

/-! ### The whole scan -/

/-- The record of slot `k` once sample and bulk voltage are taken and its watch is stepped. -/
def State.watchedSlot (s : State) (samples : PerSlot Sample) (bulk : Nat) (k : Slot) : MonSlot :=
  ((s.monOf k).sample (samples.get k)).watched (min 1023 bulk)

/-- The state that a scan's sag detector finds: every slot stepped, and the reports of watches and strikes presented. -/
def State.scannedSlots (s : State) (samples : PerSlot Sample) (bulk : Nat) : State :=
  { s with
    mon := { s.mon with
      bulk := min 1023 bulk
      scanTimer := s.settings.scanPeriod
      slots := .tabulate fun k => s.overdrawn k (s.watchedSlot samples bulk k) }
    raised := s.raised ++
      allSlots.filterMap (fun k => ((s.monOf k).sample (samples.get k)).goodReport (min 1023 bulk) k) ++
      allSlots.filterMap fun k => s.strikeReport k (s.watchedSlot samples bulk k) }

theorem scan_eq (samples : PerSlot Sample) (bulk : Nat) (s : State) :
    s.scan samples bulk = (s.scannedSlots samples bulk).stepSag (min 1023 bulk) := by
  have key : ∀ u : State, u.judged = s.judged → u.settings = s.settings →
      allSlots.foldl (fun u k => u.stepOverdraw k) (allSlots.foldl (fun u k => u.stepWatch (min 1023 bulk) k)
        (allSlots.foldl (fun u k => u.modMon k (MonSlot.sample (samples.get k))) u)) =
      u.withMon (.tabulate fun k => s.overdrawn k (((u.monOf k).sample (samples.get k)).watched (min 1023 bulk)))
        (u.raised ++ allSlots.filterMap (fun k => ((u.monOf k).sample (samples.get k)).goodReport (min 1023 bulk) k) ++
          allSlots.filterMap fun k => s.strikeReport k (((u.monOf k).sample (samples.get k)).watched (min 1023 bulk))) := by
    intro u hjudged hset
    have hover : u.overdrawn = s.overdrawn := by unfold State.overdrawn; rw [hjudged, hset]
    have hreport : u.strikeReport = s.strikeReport := by unfold State.strikeReport; rw [hjudged, hset]
    have hnone : ∀ l : List Slot, l.filterMap (fun _ => (none : Option Instr)) = [] := fun l => by simp
    have hfirst := (stepsSlots_sample (s := u) samples).all u.mon.slots u.raised
    rw [show u.withMon u.mon.slots u.raised = u from rfl, hnone, List.append_nil] at hfirst
    rw [hfirst, (stepsSlots_watch (s := u) _).all, (stepsSlots_overdraw (s := u)).all, hover, hreport]
    simp only [PerSlot.get_tabulate]
    rfl
  exact congrArg (State.stepSag (min 1023 bulk))
    (key { s with mon := { s.mon with bulk := min 1023 bulk, scanTimer := s.settings.scanPeriod } } rfl rfl)

/-! ### The sag detector -/

/-- The detector reaches nothing of the state but its own fields and the happenings raised. -/
theorem stepSag_frame (b : Nat) (s : State) : ∃ low sag left q,
    s.stepSag b = { s with mon := { s.mon with low := low, sag := sag, holdoff := left }, raised := q } := by
  have hstep : ∀ u : State, ∃ sag left, u.stepDetector b = { u with mon := { u.mon with sag := sag, holdoff := left } } := by
    intro u
    unfold State.stepDetector
    split <;> exact ⟨_, _, rfl⟩
  have hlow : ∀ n, ∃ low sag left q, ({ s with mon := { s.mon with low := n } } : State).stepDetector b =
      { s with mon := { s.mon with low := low, sag := sag, holdoff := left }, raised := q } := by
    intro n
    obtain ⟨sag, left, heq⟩ := hstep { s with mon := { s.mon with low := n } }
    exact ⟨n, sag, left, s.raised, heq⟩
  unfold State.stepSag
  split
  · split
    · exact ⟨_, _, _, _, rfl⟩
    · exact hlow _
  · exact hlow _

/-- Where a sag begins: the low count's step from 1 to 2 (R135). -/
theorem stepSag_of_begin (hb : b < s.settings.sagLevel) (hl : s.mon.low = 1) : s.stepSag b =
    { s with mon := { s.mon with low := 2, sag := .sagged, holdoff := 0 }, raised := s.raised ++ [.sagBegin b] } := by
  unfold State.stepSag
  rw [if_pos hb, if_pos hl]

/-- The low count after a scan (R135). -/
def State.lowCount (s : State) (b : Nat) : Nat := if b < s.settings.sagLevel then min 2 (s.mon.low + 1) else 0

/-- Where no sag begins the table decides. -/
theorem stepSag_of_no_begin (h : ¬ (b < s.settings.sagLevel ∧ s.mon.low = 1)) :
    s.stepSag b = ({ s with mon := { s.mon with low := s.lowCount b } } : State).stepDetector b := by
  unfold State.stepSag State.lowCount
  by_cases hb : b < s.settings.sagLevel
  · rw [if_pos hb, if_pos hb, if_neg fun hl => h ⟨hb, hl⟩]
  · rw [if_neg hb, if_neg hb]

/-- The table of R135. -/
theorem stepDetector_table (b : Nat) (s : State) : let t := s.stepDetector b
    t.mon.low = s.mon.low ∧ t.raised = s.raised ∧
    (s.mon.sag = .normal → t.mon.sag = .normal ∧ t.mon.holdoff = s.mon.holdoff) ∧
    (s.mon.sag = .sagged → s.settings.sagLevel + 10 ≤ b → t.mon.sag = .holdoff ∧ t.mon.holdoff = s.settings.sagHoldoff * 10) ∧
    (s.mon.sag = .sagged → b < s.settings.sagLevel + 10 → t.mon.sag = .sagged ∧ t.mon.holdoff = s.mon.holdoff) ∧
    (s.mon.sag = .holdoff → s.settings.sagLevel + 10 ≤ b → t.mon.sag = .holdoff ∧ t.mon.holdoff = s.mon.holdoff) ∧
    (s.mon.sag = .holdoff → b < s.settings.sagLevel + 10 → t.mon.sag = .sagged ∧ t.mon.holdoff = 0) := by
  unfold State.stepDetector State.recovered
  cases hs : s.mon.sag <;> by_cases hb : s.settings.sagLevel + 10 ≤ b <;> simp [hs, hb, Nat.not_lt.2, Nat.lt_of_not_le]

/-! ### The watches and the counts of one slot -/

theorem watched_keeps (b : Nat) (m : MonSlot) : (m.watched b).power = m.power ∧ (m.watched b).voltage = m.voltage ∧
    (m.watched b).peak = m.peak ∧ (m.watched b).window = m.window ∧ (m.watched b).watchTag = m.watchTag ∧
    (m.watched b).run = m.run ∧ (m.watched b).struck = m.struck ∧ (m.watched b).clean = m.clean := by
  unfold MonSlot.watched MonSlot.good MonSlot.watch
  split
  · exact ⟨rfl, rfl, rfl, rfl, rfl, rfl, rfl, rfl⟩
  · split <;> exact ⟨rfl, rfl, rfl, rfl, rfl, rfl, rfl, rfl⟩

theorem goodDue_iff : m.goodDue b = true ↔ m.watchArmed = true ∧ m.watchCount = 1 ∧ 9 * b ≤ 10 * m.voltage := by
  unfold MonSlot.goodDue MonSlot.qualifies
  rw [Bool.and_eq_true, Bool.and_eq_true, decide_eq_true_eq, decide_eq_true_eq, and_assoc]

theorem watched_of_disarmed (h : m.watchArmed = false) : m.watched b = m := by
  unfold MonSlot.watched MonSlot.watch
  have hno : ¬ m.watchArmed = true := by rw [h]; decide
  rw [if_neg fun hd => hno (goodDue_iff.1 hd).1, if_neg hno]

/-- A scan below 90 percent of bulk starts the count of an armed watch again (R130). -/
theorem watched_of_low (h : m.watchArmed = true) (hv : 10 * m.voltage < 9 * b) : m.watched b = { m with watchCount := 0 } := by
  have hq : m.qualifies b = false := decide_eq_false (Nat.not_le.2 hv)
  unfold MonSlot.watched MonSlot.watch
  rw [if_neg fun hd => absurd (goodDue_iff.1 hd).2.2 (Nat.not_le.2 hv), if_pos h, hq, if_neg Bool.false_ne_true]

/-- A scan at 90 percent of bulk or above is counted, and the second in a row disarms the watch (R130). -/
theorem watched_of_good (h : m.watchArmed = true) (hv : 9 * b ≤ 10 * m.voltage) :
    m.watched b = { m with watchCount := m.watchCount + 1, watchArmed := decide (m.watchCount ≠ 1) } := by
  have hq : m.qualifies b = true := decide_eq_true hv
  unfold MonSlot.watched MonSlot.watch MonSlot.good
  by_cases hone : m.watchCount = 1
  · rw [if_pos (goodDue_iff.2 ⟨h, hone, hv⟩), decide_eq_false (not_not.2 hone), hone]
  · rw [if_neg fun hd => hone (goodDue_iff.1 hd).2.1, if_pos h, hq, if_pos rfl, decide_eq_true hone, ← h]

/-- A lease outside ON is not judged: the run count starts again (R132). -/
theorem overdrawn_of_unjudged (h : s.judged k = none) : s.overdrawn k m = { m with run := 0 } := by
  unfold State.overdrawn; rw [h]

/-- A scan above the ceiling counts toward a strike, and ends a clean run (R132 to R134). -/
theorem overdrawn_of_above (h : s.judged k = some l) (hover : l.draw + s.settings.overdrawMargin < m.power) :
    s.overdrawn k m = if s.settings.overdrawCount ≤ m.run + 1 then { m with run := 0, clean := 0, struck := true }
      else { m with run := m.run + 1, clean := 0 } := by
  unfold State.overdrawn; rw [h]; exact if_pos hover

theorem overdrawn_of_below (h : s.judged k = some l) (hbelow : m.power ≤ l.draw + s.settings.overdrawMargin) :
    s.overdrawn k m = m.scanBelow := by
  unfold State.overdrawn; rw [h]; exact if_neg (Nat.not_lt.2 hbelow)

/-- A scan at or below the ceiling starts the run count again, and the 256th clean scan lifts a strike (R132, R134). -/
theorem scanBelow_eq (m : MonSlot) : m.scanBelow = { m with
    run := 0
    struck := m.struck && decide (m.clean ≠ 255)
    clean := if m.struck = true then if m.clean = 255 then 0 else m.clean + 1 else m.clean } := by
  unfold MonSlot.scanBelow MonSlot.clearStrike
  dsimp only
  cases hs : m.struck with
  | false => exact if_neg Bool.false_ne_true
  | true =>
    by_cases hc : m.clean = 255
    · simp [hc]
    · simp [hc]

theorem overdrawn_keeps (m : MonSlot) : (s.overdrawn k m).power = m.power ∧ (s.overdrawn k m).voltage = m.voltage ∧
    (s.overdrawn k m).peak = m.peak ∧ (s.overdrawn k m).window = m.window ∧ (s.overdrawn k m).watchArmed = m.watchArmed ∧
    (s.overdrawn k m).watchTag = m.watchTag ∧ (s.overdrawn k m).watchCount = m.watchCount := by
  unfold State.overdrawn
  split
  · exact ⟨rfl, rfl, rfl, rfl, rfl, rfl, rfl⟩
  · split
    · split <;> exact ⟨rfl, rfl, rfl, rfl, rfl, rfl, rfl⟩
    · rw [scanBelow_eq]; exact ⟨rfl, rfl, rfl, rfl, rfl, rfl, rfl⟩

/-! ### The statements of a scan -/

variable {samples : PerSlot Sample} {bulk : Nat}

theorem exec_scan (hd : s.store.startDone = true) : exec (.scan samples bulk) s = .next (s.scan samples bulk) :=
  congrArg Host.Outcome.next (if_pos hd)

/-- What a scan leaves of slot `k`. -/
theorem monOf_scan (k : Slot) :
    (s.scan samples bulk).monOf k = s.overdrawn k (((s.monOf k).sample (samples.get k)).watched (min 1023 bulk)) := by
  obtain ⟨low, sag, left, q, hframe⟩ := stepSag_frame (min 1023 bulk) (s.scannedSlots samples bulk)
  rw [scan_eq, hframe]
  exact PerSlot.get_tabulate _ _

/-- Settles O13: the record of each slot after sample, watch and overdraw step; the detector and the reports touch none. -/
theorem aScanKeepsEverySample : Obligations.AScanKeepsEverySample := by
  unfold Obligations.AScanKeepsEverySample
  intro samples bulk s hd
  obtain ⟨low, sag, left, q, hframe⟩ := stepSag_frame (min 1023 bulk) (s.scannedSlots samples bulk)
  have hscan := (scan_eq samples bulk s).trans hframe
  refine ⟨s.scan samples bulk, exec_scan hd, by rw [hscan]; rfl, by rw [hscan]; rfl, fun k => ?_, by rw [hscan]; rfl,
    by rw [hscan]; rfl, by rw [hscan]; rfl, by rw [hscan]; rfl, by rw [hscan]; rfl, by rw [hscan]; exact ⟨rfl, rfl, rfl, rfl, rfl⟩⟩
  obtain ⟨hpower, hvoltage, hpeak, hwindow, harmed, htag, hcount⟩ := overdrawn_keeps (s := s) (k := k)
    (((s.monOf k).sample (samples.get k)).watched (min 1023 bulk))
  obtain ⟨hpower', hvoltage', hpeak', hwindow', htag', _⟩ := watched_keeps (min 1023 bulk) ((s.monOf k).sample (samples.get k))
  dsimp only
  rw [monOf_scan, hpower, hvoltage, hpeak, hwindow, harmed, htag, hcount, hpower', hvoltage', hpeak', hwindow', htag']
  refine ⟨rfl, rfl, rfl, rfl, rfl, fun h => ?_, fun h hv => ?_, fun h hv => ?_⟩
  · rw [watched_of_disarmed (m := (s.monOf k).sample (samples.get k)) h]; exact ⟨h, rfl⟩
  · rw [watched_of_low (m := (s.monOf k).sample (samples.get k)) h hv]; exact ⟨h, rfl⟩
  · rw [watched_of_good (m := (s.monOf k).sample (samples.get k)) h hv]; exact ⟨rfl, rfl⟩

/-- Settles O14: the branches of the overdraw step, on the record that the sample and the watch leave. -/
theorem aScanStepsTheOverdrawCounts : Obligations.AScanStepsTheOverdrawCounts := by
  unfold Obligations.AScanStepsTheOverdrawCounts
  intro samples bulk s k hd
  refine ⟨s.scan samples bulk, exec_scan hd, ?_⟩
  rw [monOf_scan]
  generalize hm : ((s.monOf k).sample (samples.get k)).watched (min 1023 bulk) = m
  have hkeeps := watched_keeps (min 1023 bulk) ((s.monOf k).sample (samples.get k))
  rw [hm] at hkeeps
  obtain ⟨hpower, _, _, _, _, hrun, hstruck, hclean⟩ := hkeeps
  have hp : m.power = min 8191 (samples.get k).power := hpower
  rw [← hp, show (s.monOf k).run = m.run from hrun.symm, show (s.monOf k).struck = m.struck from hstruck.symm,
    show (s.monOf k).clean = m.clean from hclean.symm]
  refine ⟨fun hoff => ?_, fun l hon hl => ⟨fun hover => ?_, fun hbelow => ?_⟩⟩
  · rw [overdrawn_of_unjudged (judged_of_not_on hoff)]
    exact ⟨rfl, rfl, rfl⟩
  · rw [overdrawn_of_above (judged_of_on hon hl) hover]
    by_cases hmany : s.settings.overdrawCount ≤ m.run + 1
    · rw [if_pos hmany]
      exact ⟨rfl, fun hfew => absurd hmany (Nat.not_le.2 hfew), fun _ => ⟨rfl, rfl⟩⟩
    · rw [if_neg hmany]
      exact ⟨rfl, fun _ => ⟨rfl, rfl⟩, fun hdue => absurd hdue hmany⟩
  · rw [overdrawn_of_below (judged_of_on hon hl) hbelow, scanBelow_eq]
    dsimp only
    refine ⟨rfl, fun hs => ?_, fun hs hc => ?_, fun hs hc => ?_⟩
    · rw [hs]; exact ⟨rfl, rfl⟩
    · rw [hs, if_pos rfl, if_neg hc, decide_eq_true hc]; exact ⟨rfl, rfl⟩
    · rw [hs, if_pos rfl, if_pos hc, hc]; exact ⟨rfl, rfl⟩

/-! ### The reports of a scan -/

theorem filterMap_if {α β : Type} (p : α → Bool) (f : α → β) (ks : List α) :
    ks.filterMap (fun k => if p k = true then some (f k) else none) = (ks.filter p).map f := by
  rw [← List.filterMap_eq_map, List.filterMap_filter]; rfl

/-- The watches that a scan completes (R130). -/
theorem goodReport_sample (k : Slot) : ((s.monOf k).sample (samples.get k)).goodReport b k =
    if ((s.monOf k).watchArmed && decide ((s.monOf k).watchCount = 1) &&
      decide (9 * b ≤ 10 * min 1023 (samples.get k).voltage)) = true then some (.rampDone k (s.monOf k).watchTag) else none := rfl

/-- A strike is raised on the sample alone: the watch has no part in it (R133). -/
theorem strikeReport_watched (hs : (s.sessOf k).state = .on) (hl : s.leaseOf k = some l) :
    s.strikeReport k (s.watchedSlot samples bulk k) =
      if l.draw + s.settings.overdrawMargin < min 8191 (samples.get k).power ∧ s.settings.overdrawCount ≤ (s.monOf k).run + 1 then
        some (.overdrawStrike k l.tag (strikeNumber (s.monOf k).struck l.tier))
      else none := by
  obtain ⟨hpower, _, _, _, _, hrun, hstruck, _⟩ := watched_keeps (min 1023 bulk) ((s.monOf k).sample (samples.get k))
  unfold State.strikeReport State.watchedSlot
  rw [judged_of_on hs hl, hpower, hrun, hstruck]
  rfl

theorem strikeReport_of_unjudged (h : s.judged k = none) : s.strikeReport k m = none := by
  unfold State.strikeReport; rw [h]

/-- The reports of watches and strikes that stand when the sag detector is stepped, lower slots first (R128, log entry 41). -/
theorem raised_scannedSlots {strikes : Slot → Option Instr}
    (h : ∀ k, s.strikeReport k (s.watchedSlot samples bulk k) = strikes k) : (s.scannedSlots samples bulk).raised = s.raised ++
      (allSlots.filter (fun k => (s.monOf k).watchArmed && decide ((s.monOf k).watchCount = 1) &&
        decide (9 * min 1023 bulk ≤ 10 * min 1023 (samples.get k).voltage))).map (fun k => .rampDone k (s.monOf k).watchTag) ++
      allSlots.filterMap strikes := by
  unfold State.scannedSlots
  simp only [goodReport_sample, filterMap_if, h]

/-- Settles O15: the detector on the state that the slots' steps leave, and the reports in the order of the steps. -/
theorem aScanStepsTheSagDetectorAndReports : Obligations.AScanStepsTheSagDetectorAndReports := by
  unfold Obligations.AScanStepsTheSagDetectorAndReports
  intro samples bulk s hd
  dsimp only
  refine ⟨s.scan samples bulk, exec_scan hd, ?_⟩
  rw [scan_eq, ← raised_scannedSlots]
  swap
  · intro k
    split
    · rename_i hs hl
      exact strikeReport_watched hs hl
    · rename_i hno
      exact strikeReport_of_unjudged (judged_of_no_lease hno)
  by_cases hbegin : min 1023 bulk < s.settings.sagLevel ∧ s.mon.low = 1
  · obtain ⟨hb, hlow⟩ := hbegin
    rw [stepSag_of_begin (s := s.scannedSlots samples bulk) hb hlow, if_pos hb, if_pos ⟨hb, hlow⟩, hlow]
    exact ⟨rfl, fun _ _ => ⟨rfl, rfl⟩, fun hno => absurd ⟨hb, rfl⟩ hno, rfl⟩
  · obtain ⟨hlow, hreports, htable⟩ := stepDetector_table (min 1023 bulk) { s.scannedSlots samples bulk with
      mon := { (s.scannedSlots samples bulk).mon with low := (s.scannedSlots samples bulk).lowCount (min 1023 bulk) } }
    rw [stepSag_of_no_begin (s := s.scannedSlots samples bulk) hbegin, if_neg hbegin, List.append_nil]
    exact ⟨hlow, fun hb hone => absurd ⟨hb, hone⟩ hbegin, fun _ => htable, hreports⟩

/-! ### The scans that the sender names -/

theorem exec_outputGood (hd : s.store.startDone = true) : exec (.outputGood k) s =
    .next (if (s.monOf k).watchArmed = true ∧ (s.monOf k).watchCount = 1 then s.reportGood k else s) :=
  congrArg Host.Outcome.next (if_pos hd)

theorem exec_strikeClear (hd : s.store.startDone = true) : exec (.strikeClear k) s =
    .next (if (s.sessOf k).state = .on ∧ (s.monOf k).struck = true ∧ (s.monOf k).clean = 255 then
      s.modMon k (fun m => { m.clearStrike with run := 0 }) else s) :=
  congrArg Host.Outcome.next (if_pos hd)

/-- Settles O16: each event acts under its own condition and leaves every other state as it is. -/
theorem outputGoodReportsAndACleanRunClears : Obligations.OutputGoodReportsAndACleanRunClears := by
  unfold Obligations.OutputGoodReportsAndACleanRunClears
  intro k s hd
  rw [exec_outputGood hd, exec_strikeClear hd]
  refine ⟨fun harmed hcount => ?_, fun hno => ?_, fun hon hstruck hclean => ?_, fun hno => ?_⟩
  · rw [if_pos ⟨harmed, hcount⟩]; rfl
  · rw [if_neg hno]
  · rw [if_pos ⟨hon, hstruck, hclean⟩]; rfl
  · rw [if_neg hno]

end Sys2Proof.Machine
end

section
/-! PROOFS. Recall on a lease in ON, and the strike that recalls to tier 1 or ends the session (R16, R46 to R48, R92, R133). -/

namespace Sys2Proof.Machine

variable {s t : State} {k : Slot} {l : Lease} {n : Nat} {o : RecallOrigin}

/-! ### The RECALL queued -/

theorem Line.queue_recall_outbox (m : DownMsg) (x : Line) : (x.queue .recall m).outRecall = some m ∧
    (x.queue .recall m).outSession = x.outSession ∧ (x.queue .recall m).outClaim = x.outClaim := by
  refine ⟨Line.queue_recall _ _, ?_⟩
  unfold Line.queue Line.kick
  split <;> exact ⟨rfl, rfl⟩

/-- A lease whose tier is not above the target is not recalled (R46). -/
theorem recallOn_of_le (hl : s.leaseOf k = some l) (hn : l.tier ≤ n) : s.recallOn k n o = s := by
  unfold State.recallOn
  rw [hl]
  exact if_neg (Nat.not_lt.2 hn)

/-- A recall on a LOWER in flight keeps the lower target, and the deadline unless the target falls (R48). -/
theorem recallOn_of_lower {old w left : Nat} {g : RecallOrigin} (hl : s.leaseOf k = some l)
    (hx : l.trans = some (.lower old w g left)) (hn : n < l.tier) : s.recallOn k n o =
      s.putLower k l (min old n) o (if n < old then s.settings.settleTime * 10 else left) := by
  unfold State.recallOn
  rw [hl]
  refine (if_pos hn).trans ?_
  rw [hx]

theorem not_raising_of_lower {old w left : Nat} {g : RecallOrigin} (hl : s.leaseOf k = some l)
    (hx : l.trans = some (.lower old w g left)) : s.raising k = false := by
  unfold State.raising
  rw [hl]; dsimp only; rw [hx]

/-- What a LOWER put on a lease without a RAISE leaves of its slot, and that committed stands (R46, R48). -/
theorem putLower_parts {d : Nat} (hl : s.leaseOf k = some l) (h : s.raising k = false) : let u := s.putLower k l n o d
    u.leaseOf k = some { l with trans := some (.lower n (s.drawOf k n) o d) } ∧
    u.lineOf k = (s.lineOf k).queue .recall (.recall n (recallField d)) ∧
    u.alloc.committed = s.alloc.committed ∧ u.alloc.passDue = s.alloc.passDue ∧
    u.notices = s.notices.take .recallIssued (some k) o.reason false n := by
  rw [putLower_eq hl h]
  exact ⟨PerSlot.get_set_self _ _ _, PerSlot.get_set_self _ _ _, rfl, rfl, rfl⟩

/-! ### A recall in ON -/

/-- A lease without a RAISE counts its granted draw. -/
theorem commitment_of_not_raising (hl : s.leaseOf k = some l) (h : s.raising k = false) :
    s.commitment k = max (s.floorOf k) l.draw := by
  unfold State.commitment; rw [term_of_not_raising hl h]

/-- Where committed does not fall, a happening that leaves the pass mark makes no pass due by it. -/
theorem passDueBy_of_same {p : Prop} (hp : ¬ p) (h : t.alloc.passDue = s.alloc.passDue) : s.PassDueBy t p :=
  ⟨fun hx => absurd hx hp, fun _ => h⟩

/-- The RAISE cancelled, the recall puts its LOWER on the lease (R47). -/
theorem State.Cancelled.recallStands (h : s.Cancelled t k l) (hl : s.leaseOf k = some l)
    (hx : ∀ t w o n, l.trans ≠ some (.lower t w o n)) (hn : n < l.tier) : s.RecallStands (t.recallOn k n o) k n o := by
  intro l' hl'
  rw [hl] at hl'; cases hl'
  have hraise : t.raising k = false := by unfold State.raising; rw [h.lease]
  obtain ⟨_, hrecall, hsession, hclaim, _⟩ := h.recallNotIssued hl hx l hl
  obtain ⟨hlease, hline, hcommitted, hdue, hnotices⟩ := putLower_parts (l := { l with trans := none }) (n := n) (o := o)
    (d := s.settings.settleTime * 10) h.lease hraise
  obtain ⟨hrecall', hsession', hclaim'⟩ := Line.queue_recall_outbox (.recall n (recallField (s.settings.settleTime * 10)))
    (t.lineOf k)
  refine ⟨n, s.settings.settleTime * 10, ?_, ?_⟩
  · split
    · rename_i hlower; exact absurd hlower (hx _ _ _ _)
    · exact ⟨rfl, rfl⟩
  · rw [recallOn_of_plain h.lease rfl hn, h.only.settings, hlease, hline, hcommitted, hnotices, hrecall', hsession', hclaim',
      h.drawOf, h.notices]
    refine ⟨rfl, rfl, hsession, hclaim, h.committed, ?_, rfl⟩
    unfold State.PassDueBy
    rw [hdue]
    exact h.due

/-- A recall on a LOWER in flight stands with the lower target (R48). -/
theorem recallStands_of_lower {old w left : Nat} {g : RecallOrigin} (hl : s.leaseOf k = some l)
    (hx : l.trans = some (.lower old w g left)) (hn : n < l.tier) : s.RecallStands (s.recallOn k n o) k n o := by
  intro l' hl'
  rw [hl] at hl'; cases hl'
  have hraise := not_raising_of_lower hl hx
  have hcommitment := commitment_of_not_raising hl hraise
  obtain ⟨hlease, hline, hcommitted, hdue, hnotices⟩ := putLower_parts (n := min old n) (o := o)
    (d := if n < old then s.settings.settleTime * 10 else left) hl hraise
  obtain ⟨hrecall, hsession, hclaim⟩ := Line.queue_recall_outbox
    (.recall (min old n) (recallField (if n < old then s.settings.settleTime * 10 else left))) (s.lineOf k)
  rw [recallOn_of_lower hl hx hn, hx, hlease, hline, hcommitted, hnotices, hrecall, hsession, hclaim, ← hcommitment]
  exact ⟨min old n, if n < old then s.settings.settleTime * 10 else left, ⟨rfl, rfl⟩, rfl, rfl, rfl, rfl,
    (Nat.add_sub_cancel ..).symm, passDueBy_of_same (Nat.lt_irrefl _) hdue, rfl⟩

/-- A recall of a lease in ON to a tier below the granted one stands (R46 to R48). -/
theorem recall_stands (hs : (s.sessOf k).state = .on) (hl : s.leaseOf k = some l) (hn : n < l.tier) :
    s.RecallStands (s.recall k n o) k n o := by
  rw [recall_of_on hs]
  by_cases hlow : ∃ old w g left, l.trans = some (.lower old w g left)
  · obtain ⟨old, w, g, left, hx⟩ := hlow
    rw [cancelRaise_of_not_raising (not_raising_of_lower hl hx)]
    exact recallStands_of_lower hl hx hn
  · have hx : ∀ t w o n, l.trans ≠ some (.lower t w o n) := fun t w o n hx => hlow ⟨t, w, o, n, hx⟩
    exact (cancelled_cancelRaise hl hx).recallStands hl hx hn

/-- A recall of a lease in ON to a tier that is not below the granted one only cancels a RAISE (R47). -/
theorem recall_notIssued (hs : (s.sessOf k).state = .on) (hl : s.leaseOf k = some l) (hn : l.tier ≤ n) :
    s.RecallNotIssued (s.recall k n o) k := by
  rw [recall_of_on hs]
  by_cases hlow : ∃ old w g left, l.trans = some (.lower old w g left)
  · obtain ⟨old, w, g, left, hx⟩ := hlow
    have hraise := not_raising_of_lower hl hx
    have hcommitment := commitment_of_not_raising hl hraise
    rw [cancelRaise_of_not_raising hraise, recallOn_of_le hl hn]
    intro l' hl'
    rw [hl] at hl'; cases hl'
    rw [← hcommitment]
    obtain ⟨_, _, _, _, x⟩ := l
    cases hx
    exact ⟨hl, rfl, rfl, rfl, (Nat.add_sub_cancel ..).symm, passDueBy_of_same (Nat.lt_irrefl _) rfl, rfl⟩
  · have hx : ∀ t w o n, l.trans ≠ some (.lower t w o n) := fun t w o n hx => hlow ⟨t, w, o, n, hx⟩
    have hcancel := cancelled_cancelRaise hl hx
    rw [recallOn_of_le hcancel.lease hn]
    exact hcancel.recallNotIssued hl hx

/-- A recall in ON reaches neither session nor path nor monitor nor entry. -/
theorem recall_on_frame (hs : (s.sessOf k).state = .on) : State.OnlyAt k s (s.recall k n o) ∧ (s.recall k n o).sess = s.sess ∧
    (s.recall k n o).power = s.power ∧ (s.recall k n o).mon = s.mon ∧ (s.recall k n o).entryOf k = s.entryOf k := by
  rw [recall_of_on hs]
  refine ⟨onlyAt_cancelRaise.trans onlyAt_recallOn, ?_⟩
  have hcancel : (s.cancelRaise k).sess = s.sess ∧ (s.cancelRaise k).power = s.power ∧ (s.cancelRaise k).mon = s.mon ∧
      (s.cancelRaise k).alloc.queue = s.alloc.queue := by
    unfold State.cancelRaise
    split
    · exact ⟨rfl, rfl, rfl, rfl⟩
    · split <;> exact ⟨rfl, rfl, rfl, rfl⟩
  obtain ⟨hsess, hpower, hmon, hqueue⟩ := hcancel
  rcases recallOn_cases (s := s.cancelRaise k) (k := k) n o with hnone | ⟨l, m, d, _, hput⟩
  · rw [hnone]; exact ⟨hsess, hpower, hmon, entryOf_eq_of_queue hqueue⟩
  · rw [hput]; exact ⟨hsess, hpower, hmon, entryOf_eq_of_queue hqueue⟩

/-- A lease in a ramp is not reached by a recall of origin OVERDRAW (R49). -/
theorem recall_overdraw_of_ramp (hs : (s.sessOf k).state = .rampWait ∨ (s.sessOf k).state = .ramping) :
    s.recall k n .overdraw = s := by
  unfold State.recall
  rcases hs with hs | hs <;> rw [hs]

/-! ### The strike -/

theorem exec_overdrawStrike {g : Byte} {m : StrikeNumber} (hd : s.store.startDone = true) : exec (.overdrawStrike k g m) s =
    .next ((s.taken (.overdrawStrike k g m)).takeStrike k g m) :=
  congrArg Host.Outcome.next (if_pos hd)

theorem takeStrike_of_other {g : Byte} {m : StrikeNumber} (h : ∀ l, s.leaseOf k = some l → l.tag ≠ g) : s.takeStrike k g m = s := by
  unfold State.takeStrike
  split
  · rfl
  · rename_i l hl; exact if_neg (h l hl)

theorem takeStrike_of_own {g : Byte} {m : StrikeNumber} (hl : s.leaseOf k = some l) (hg : l.tag = g) :
    s.takeStrike k g m = (s.strike k m).finish := by
  unfold State.takeStrike
  rw [hl]
  exact if_pos hg

theorem onlyAt_recall_overdraw : State.OnlyAt k s (s.recall k n .overdraw) := by
  unfold State.recall
  split
  · exact onlyAt_cancelRaise.trans onlyAt_recallOn
  all_goals exact .refl s k

theorem onlyAt_strike {m : StrikeNumber} : State.OnlyAt k s (s.strike k m) := by
  cases m with
  | first => exact onlyAt_post.trans onlyAt_recall_overdraw
  | second => exact onlyAt_post.trans onlyAt_faultSlot

/-- Settles O17: the report discarded, the first strike as a recall in ON or as its notice alone, and the second as the entry to
FAULTED. -/
theorem aStrikeRecallsAndThenFaults : Obligations.AStrikeRecallsAndThenFaults := by
  unfold Obligations.AStrikeRecallsAndThenFaults
  intro k g m s hd
  rw [exec_overdrawStrike hd]
  refine ⟨fun hother => by rw [takeStrike_of_other (s := s.taken _) hother]; rfl, fun l hl hg => ?_⟩
  generalize Instr.overdrawStrike k g m = c
  have honly := onlyAt_strike (s := s.taken c) (k := k) (m := m)
  refine ⟨(s.taken c).strike k m, by rw [takeStrike_of_own (s := s.taken c) hl hg], honly.host, honly.others, honly.raised,
    fun hm hon => ?_, fun hm hramp => ?_, fun hm => ?_⟩
  · subst hm
    obtain ⟨_, hsess, hpower, hmon, hentry⟩ :=
      recall_on_frame (s := (s.taken c).post .overdrawStrike (some k) .overdraw 1) (n := 1) (o := .overdraw) hon
    refine ⟨hsess, hpower, hmon, hentry, fun htier => ?_, fun htier => ?_⟩
    · exact recall_stands (s := (s.taken c).post .overdrawStrike (some k) .overdraw 1) hon hl htier
    · exact recall_notIssued (s := (s.taken c).post .overdrawStrike (some k) .overdraw 1) hon hl htier
  · subst hm
    exact recall_overdraw_of_ramp (s := (s.taken c).post .overdrawStrike (some k) .overdraw 1) hramp
  · subst hm
    have htorn := torn_faultSlot (s := (s.taken c).post .overdrawStrike (some k) .overdraw 2) (k := k) (c := .overdraw)
    have htier : ((s.taken c).post .overdrawStrike (some k) .overdraw 2).grantedTier k = l.tier := grantedTier_of_lease hl
    rw [htier] at htorn
    exact ⟨htorn.ended, htorn.gone (Option.isSome_of_mem hl), htorn.due, htorn.notices⟩

end Sys2Proof.Machine
end

section
/-! PROOFS. A sag: every DEFERRABLE lease is cut and its session settles, no pass runs and no ramp starts until the hold-off is over (R19,
R33, R136, R138, R139). -/

namespace Sys2Proof.Machine

variable {s t u v : State} {j k : Slot} {w : Nat}

/-! ### The end of a sag -/

theorem exec_sagEnd (hd : s.store.startDone = true) :
    exec .sagEnd s = .next (if s.mon.sag = .holdoff then s.sagEnds else s) := congrArg Host.Outcome.next (if_pos hd)

/-- Settles O19: outside HOLDOFF nothing changes, and in HOLDOFF what the end of the happening finds is written out. -/
theorem theEndOfASagResumesGrants : Obligations.TheEndOfASagResumesGrants := by
  unfold Obligations.TheEndOfASagResumesGrants
  intro s hd
  rw [exec_sagEnd hd]
  refine ⟨fun hno => by rw [if_neg hno], fun hsag => ?_⟩
  rw [if_pos hsag]
  unfold State.sagEnds
  simp only [decide_eq_true_eq]
  rfl

/-! ### What a sag leaves of a slot it does not cut -/

/-- Slot `k` and the live policy stand as they stood, and the slot has got no place in the Ramp Queue nor the ramp resource. -/
structure State.Spares (s t : State) (k : Slot) : Prop where
  slot : s.SameSlot t k
  cmd : t.cmd = s.cmd
  queue : k ∉ s.power.queue → k ∉ t.power.queue
  holder : s.power.holder ≠ some k → t.power.holder ≠ some k

theorem State.Spares.of_same (hs : s.SameSlot t k) (hc : t.cmd = s.cmd) (hp : t.power = s.power) : s.Spares t k :=
  ⟨hs, hc, fun h => by rw [hp]; exact h, fun h => by rw [hp]; exact h⟩

theorem State.Spares.refl (s : State) (k : Slot) : s.Spares s k := .of_same ⟨rfl, rfl, rfl, rfl, rfl, rfl⟩ rfl rfl

theorem State.Spares.trans (h : s.Spares t k) (g : t.Spares u k) : s.Spares u k :=
  ⟨h.slot.trans g.slot, g.cmd.trans h.cmd, fun hq => g.queue (h.queue hq), fun hh => g.holder (h.holder hh)⟩

/-- What happens at another slot adds nothing to the Ramp Queue and hands the ramp resource to none. -/
theorem State.OnlyAt.spares (h : State.OnlyAt j s t) (hk : k ≠ j) (hq : ∀ i ∈ t.power.queue, i ∈ s.power.queue)
    (hh : t.power.holder = s.power.holder ∨ t.power.holder = none) : s.Spares t k where
  slot := h.others k hk
  cmd := h.cmd
  queue hn hm := hn (hq k hm)
  holder hn := by
    rcases hh with hh | hh
    · rw [hh]; exact hn
    · rw [hh]; nofun

theorem spares_testShedEnd : s.Spares s.testShedEnd k := by
  obtain ⟨hframe, hpower, hslot⟩ := testShedEnd_frame (s := s)
  obtain ⟨_, hcmd, _⟩ := hframe.host
  exact .of_same (hslot k) hcmd hpower

/-- What a sag leaves outside the slots, the budget and the notices: the detector, the sag condition, the ramp hold and, but for an end of
shedding, the Allocator's state (R71, R136). -/
structure State.SagFrame (s t : State) : Prop where
  host : s.HostSame t
  raised : t.raised = s.raised
  detector : t.mon.sag = s.mon.sag
  condition : t.alloc.sagCondition = s.alloc.sagCondition
  hold : t.power.hold = s.power.hold
  state : s.alloc.sagCondition = true → t.alloc.state = s.alloc.state ∨ t.alloc.state = .sagHold

theorem State.SagFrame.trans (h : s.SagFrame t) (g : t.SagFrame u) : s.SagFrame u where
  host := h.host.trans g.host
  raised := g.raised.trans h.raised
  detector := g.detector.trans h.detector
  condition := g.condition.trans h.condition
  hold := g.hold.trans h.hold
  state hc := by
    rcases g.state (h.condition.trans hc) with hg | hg
    · rw [hg]; exact h.state hc
    · exact .inr hg

theorem State.OnlyAt.sagFrame (h : State.OnlyAt k s t) : s.SagFrame t :=
  ⟨h.host, h.raised, by rw [h.mon], h.sagCondition, h.hold, fun _ => .inl h.state⟩

theorem State.SagFrame.refl (s : State) : s.SagFrame s := (State.OnlyAt.refl s 0).sagFrame

theorem sagFrame_testShedEnd : s.SagFrame s.testShedEnd := by
  obtain ⟨hframe, hpower, _⟩ := testShedEnd_frame (s := s)
  refine ⟨hframe.host, hframe.raised, ?_, ?_, hframe.hold, ?_⟩ <;> unfold State.testShedEnd <;> split
  · rfl
  · rfl
  · rfl
  · rfl
  · exact fun hc => .inr (if_pos hc)
  · exact fun _ => .inl rfl

/-! ### The two steps of a sag at one slot -/

/-- The drop of a lease takes slots from the Ramp Queue and frees the ramp resource, no more (R116). -/
theorem path_dropLease : (∀ i ∈ (s.dropLease k).power.queue, i ∈ s.power.queue) ∧
    ((s.dropLease k).power.holder = s.power.holder ∨ (s.dropLease k).power.holder = none) := by
  have key : ∀ (l : Lease) (v : State), v.power = s.power →
      let t := ((v.modLine k (Line.leaseDropped l)).releasePath k).modMon k (fun m => { m with run := 0 })
      (∀ i ∈ t.power.queue, i ∈ s.power.queue) ∧ (t.power.holder = s.power.holder ∨ t.power.holder = none) := by
    intro l v hv
    rw [← hv]
    refine ⟨fun i hi => List.mem_of_mem_filter hi, ?_⟩
    show (if v.power.holder = some k then none else v.power.holder) = _ ∨ (if v.power.holder = some k then none else _) = none
    split
    · exact .inr rfl
    · exact .inl rfl
  unfold State.dropLease
  split
  · exact ⟨fun _ hi => hi, .inl rfl⟩
  · rename_i l _
    dsimp only
    split
    · obtain ⟨_, _, hpower, _⟩ := creditVictim_frame (s := s.setLease k none) (k := k)
        (n := s.commitment k - (s.setLease k none).commitment k)
      exact key l _ hpower
    · exact key l _ rfl

theorem onlyAt_dropPost {n : NoticeKind} {o : Option Slot} {r : Reason} :
    State.OnlyAt k s ((s.dropLease k).post n o r w) := onlyAt_dropLease.trans onlyAt_post

theorem spares_sagCut (h : k ≠ j) : s.Spares (s.sagCut j) k := by
  obtain ⟨hqueue, hholder⟩ := path_dropLease (s := s) (k := j)
  exact (onlyAt_dropPost.spares h hqueue hholder).trans spares_testShedEnd

theorem sagFrame_sagCut : s.SagFrame (s.sagCut k) := (onlyAt_dropPost (k := k)).sagFrame.trans sagFrame_testShedEnd

theorem onlyAt_settleRestoring : State.OnlyAt k s (s.settleRestoring k w) := by
  unfold State.settleRestoring State.restore
  dsimp only
  split
  · split
    · exact onlyAt_settle.trans entryMoved_restoreClaim.only
    · exact onlyAt_settle
  · exact onlyAt_settle

/-- The settlement of a session, with its RESTORE, leaves Ramp Queue and ramp resource alone. -/
theorem path_settleRestoring : (s.settleRestoring k w).power.queue = s.power.queue ∧
    (s.settleRestoring k w).power.holder = s.power.holder := by
  have hsettle : (s.settle k).power.queue = s.power.queue ∧ (s.settle k).power.holder = s.power.holder := by
    unfold State.settle
    split
    · dsimp only
      split
      · exact ⟨rfl, rfl⟩
      · rw [entryMoved_denyEntry.power]; exact ⟨rfl, rfl⟩
    · exact path_teardown
  unfold State.settleRestoring State.restore
  dsimp only
  split
  · split
    · rw [entryMoved_restoreClaim.power]; exact hsettle
    · exact hsettle
  · exact hsettle

theorem spares_settleRestoring (h : k ≠ j) : s.Spares (s.settleRestoring j w) k := by
  obtain ⟨hqueue, hholder⟩ := path_settleRestoring (s := s) (k := j) (w := w)
  exact onlyAt_settleRestoring.spares h (fun i hi => hqueue ▸ hi) (.inl hholder)

/-! ### One step after the other -/

section Fold

variable {f : State → Slot → State} {ks : List Slot}

theorem foldl_sagFrame (hf : ∀ u j, State.SagFrame u (f u j)) (s : State) : s.SagFrame (ks.foldl f s) := by
  induction ks generalizing s with
  | nil => exact .refl s
  | cons j js ih => exact (hf s j).trans (ih _)

variable (hf : ∀ u j, k ≠ j → State.Spares u (f u j) k)
include hf

theorem foldl_spares (hk : k ∉ ks) (s : State) : s.Spares (ks.foldl f s) k := by
  induction ks generalizing s with
  | nil => exact .refl s k
  | cons j js ih =>
    rw [List.mem_cons, not_or] at hk
    exact (hf s j hk.1).trans (ih hk.2 _)

/-- A slot of the list has its own step once, and is spared before and after. -/
theorem foldl_around (hk : k ∈ ks) (hn : ks.Nodup) (s : State) : ∃ v, s.Spares v k ∧ (f v k).Spares (ks.foldl f s) k := by
  obtain ⟨ahead, behind, rfl⟩ := List.append_of_mem hk
  obtain ⟨_, hbehind, hapart⟩ := List.nodup_append.1 hn
  have hahead : k ∉ ahead := fun hmem => hapart k hmem k (List.mem_cons_self ..) rfl
  rw [List.foldl_append, List.foldl_cons]
  exact ⟨_, foldl_spares hf hahead s, foldl_spares hf (List.nodup_cons.1 hbehind).1 _⟩

end Fold

/-! ### A slot that is cut -/

/-- A slot without a lease has nothing of one: what is left of it by a drop is left by none. -/
theorem State.LeaseOff.self (h : s.LeaseOff t k) : t.LeaseOff t k := by
  obtain ⟨hlease, _, hstate, htag, hgate, _, _, hpath⟩ := h
  exact ⟨hlease, by rw [commitment_of_no_lease hlease]; exact (Nat.add_sub_cancel ..).symm, hstate, htag, hgate, rfl, rfl, hpath⟩

theorem State.LeaseOff.spared (h : t.LeaseOff t k) (g : t.Spares u k) : u.LeaseOff u k := by
  obtain ⟨_, hlease, _, hramp, hmon, _⟩ := g.slot
  obtain ⟨hnone, _, hstate, htag, hgate, _, _, hqueue, hholder, hwatch⟩ := h
  refine State.LeaseOff.self (s := u) ⟨hlease.trans hnone, ?_, ?_⟩
  · rw [commitment_of_no_lease (hlease.trans hnone)]; exact (Nat.add_sub_cancel ..).symm
  · rw [hramp, hmon]
    exact ⟨hstate, htag, hgate, rfl, rfl, g.queue hqueue, g.holder hholder, hwatch⟩

/-- `t` is `s` with the lease of slot `k` cut by a sag, its session still to settle (R136 step 2). -/
structure State.CutAt (s t : State) (k : Slot) : Prop where
  off : t.LeaseOff t k
  entry : t.entryOf k = s.entryOf k
  sess : t.sessOf k = s.sessOf k
  cmd : t.cmd = s.cmd

theorem State.CutAt.spared (h : s.CutAt t k) (g : t.Spares u k) : s.CutAt u k where
  off := h.off.spared g
  entry := g.slot.entryOf.trans h.entry
  sess := g.slot.1.trans h.sess
  cmd := g.cmd.trans h.cmd

theorem cutAt_sagCut (h : s.Spares v k) (hl : (s.leaseOf k).isSome = true) : s.CutAt (v.sagCut k) k := by
  have hlease : (v.leaseOf k).isSome = true := by rw [h.slot.leaseOf]; exact hl
  obtain ⟨hsess, _⟩ := dropLease_keeps (s := v) (k := k)
  have hdrop : s.CutAt (v.dropLease k) k :=
    { off := (dropLease_leaseOff hlease).self
      entry := dropLease_credits.2.trans h.slot.entryOf
      sess := (congrArg (PerSlot.get · k) hsess).trans h.slot.1
      cmd := (onlyAt_dropLease (k := k)).cmd.trans h.cmd }
  have hpost : (v.dropLease k).Spares ((v.dropLease k).post .cut (some k) .sag (v.grantedTier k)) k :=
    .of_same ⟨rfl, rfl, rfl, rfl, rfl, rfl⟩ rfl rfl
  exact hdrop.spared (hpost.trans spares_testShedEnd)

/-- A slot that a sag has cut settles as after any other drop of its lease. -/
theorem State.CutAt.dropped (h : s.CutAt t k) : t.Dropped t k (s.sessOf k).admitFlag where
  only := .refl t k
  gone := by
    have hlowers : ¬ t.Lowers k := fun ⟨l, _, _, _, _, hl, _⟩ => by rw [h.off.1] at hl; cases hl
    refine ⟨h.off, fun _ => ⟨fun hl => absurd hl hlowers, fun _ => ⟨rfl, rfl⟩⟩, fun hsome _ hnone => ?_⟩
    rw [hnone] at hsome; cases hsome
  entry := rfl
  beneficiary := rfl
  admitFlag := by rw [h.sess]
  tag := rfl
  desc := rfl
  protoErrors := rfl
  link := ⟨rfl, rfl, rfl⟩
  struck := rfl
  due := passDueBy_of_same (not_dropCalls_of_none h.off.1) rfl
  reclaim := id

/-- Slot `k`, which had a lease of tier `w` in `s`, has been cut by a sag and its session has settled in `t` (R33, R53, R136). -/
structure State.SagSettled (s t : State) (k : Slot) (w : Nat) : Prop where
  lease : t.leaseOf k = none
  gate : (t.rampOf k).gate = false
  ramp : (t.rampOf k).state = .none
  queue : k ∉ t.power.queue
  holder : t.power.holder ≠ some k
  state : (t.sessOf k).state = if (s.policyOf k).enabled = true then .standby else .barred
  admitFlag : (s.policyOf k).enabled = true → (t.sessOf k).admitFlag = (s.sessOf k).admitFlag
  restored : (s.policyOf k).enabled = true → (s.sessOf k).admitFlag = true → s.Restored t k w

theorem State.SagSettled.spared (h : s.SagSettled t k w) (g : t.Spares u k) : s.SagSettled u k w := by
  obtain ⟨hsess, hlease, _, hramp, _, hentry⟩ := g.slot
  refine ⟨hlease.trans h.lease, by rw [hramp]; exact h.gate, by rw [hramp]; exact h.ramp, g.queue h.queue, g.holder h.holder,
    by rw [hsess]; exact h.state, by rw [hsess]; exact h.admitFlag, ?_⟩
  unfold State.Restored
  rw [hentry]
  exact h.restored

theorem sagSettled_settleRestoring (h : s.CutAt t k) : s.SagSettled (t.settleRestoring k w) k w := by
  have hpolicy : t.policyOf = s.policyOf := by unfold State.policyOf; rw [h.cmd]
  obtain ⟨⟨⟨hlease, _, hramp, _, hgate, _, _, hqueue, hholder, _⟩, _⟩, _, hstands, hbarred, _⟩ :=
    h.dropped.settlesRestoring (w := w)
  rw [hpolicy] at hstands hbarred
  refine ⟨hlease, hgate, hramp, hqueue, hholder, ?_, fun hen => ?_, fun hen hflag => ?_⟩
  · split
    · rename_i hen
      obtain ⟨hstate, _⟩ := hstands hen
      exact hstate
    · rename_i hen
      obtain ⟨_, _, ⟨hstate, _⟩, _⟩ := hbarred (by simpa using hen)
      exact hstate
  · obtain ⟨_, hadmit, _⟩ := hstands hen
    exact hadmit
  · have hdropped := h.dropped
    rw [hflag] at hdropped
    have hrestored := hdropped.restored (w := w) (by rw [hpolicy]; exact hen)
    have hfloor : t.floorOf = s.floorOf := funext (floorOf_of_cmd h.cmd)
    have hfloors : t.floorSum = s.floorSum := by unfold State.floorSum; rw [hfloor]
    have hdesc : (t.sessOf k).desc = (s.sessOf k).desc := by rw [h.sess]
    unfold State.Restored at hrestored ⊢
    rw [h.entry, tiersOf_congr hdesc, drawOf_congr hdesc, hpolicy, hfloor, hfloors, available_of_cmd h.cmd, h.sess] at hrestored
    exact hrestored

/-! ### The reclaim in a sag -/

theorem lowers_iff_lowering : s.Lowers k ↔ s.lowering k = true := by
  rw [lowering_iff]
  unfold State.lowering
  cases s.leaseOf k with
  | none => simp
  | some l => simp

theorem lowering_eq_any (k : Slot) : s.lowering k = (s.leaseOf k).any Lease.lowering := by
  unfold State.lowering
  cases s.leaseOf k <;> rfl

theorem alloc_sagCut : (s.sagCut k).alloc.reclaim = (s.dropLease k).alloc.reclaim ∧
    (s.sagCut k).alloc.earmark = (s.dropLease k).alloc.earmark := by
  unfold State.sagCut State.testShedEnd
  split <;> exact ⟨rfl, rfl⟩

/-- What a cut does to the reclaim: a marked LOWER credits the whole commitment above the floor, and leaves the victim set (R60). -/
theorem reclaim_sagCut {r : Reclaim} (hr : s.alloc.reclaim = some r) (he : s.alloc.earmark ≤ r.shortfall) :
    (s.sagCut k).alloc.reclaim =
      some { r with victims := r.victims.filter (fun j => decide (¬ (j = k ∧ s.lowering k = true))) } ∧
    (s.sagCut k).alloc.earmark = min r.shortfall
      (s.alloc.earmark + if k ∈ r.victims ∧ s.lowering k = true then s.commitment k - s.floorOf k else 0) := by
  obtain ⟨⟨hdrop, _⟩, hentry⟩ := dropLease_credits (s := s) (k := k)
  obtain ⟨hcredits, hsame⟩ := hdrop (.inl hentry)
  obtain ⟨hreclaim, hearmark⟩ := alloc_sagCut (s := s) (k := k)
  rw [hreclaim, hearmark]
  by_cases hcut : k ∈ r.victims ∧ s.lowering k = true
  · obtain ⟨hk, hlow⟩ := hcut
    obtain ⟨hgained, hvictims⟩ := (hcredits (lowers_iff_lowering.2 hlow)).1 r hr hk
    rw [if_pos ⟨hk, hlow⟩, hgained, hvictims, hlow]
    exact ⟨by simp, by omega⟩
  · have hstands : s.ReclaimSame (s.dropLease k) := by
      by_cases hlow : s.Lowers k
      · refine (hcredits hlow).2 fun r' hr' hk => hcut ⟨?_, lowers_iff_lowering.1 hlow⟩
        rw [hr] at hr'; cases hr'
        exact hk
      · exact hsame hlow
    obtain ⟨hreclaim', hearmark'⟩ := hstands
    have hvictims : r.victims.filter (fun j => decide (¬ (j = k ∧ s.lowering k = true))) = r.victims :=
      List.filter_eq_self.2 fun j hj => decide_eq_true fun ⟨hjk, hlow⟩ => hcut ⟨hjk ▸ hj, hlow⟩
    rw [if_neg hcut, hreclaim', hearmark', hr, hvictims]
    exact ⟨rfl, (min_eq_right he).symm⟩

/-- The cuts of the slots `ks`: every marked LOWER among them leaves the victim set, and their falls go to the earmark up to the
shortfall (R60). -/
theorem reclaim_sagCuts {ks : List Slot} (hn : ks.Nodup) {r : Reclaim} (hr : s.alloc.reclaim = some r)
    (he : s.alloc.earmark ≤ r.shortfall) : let t := ks.foldl (fun t k => t.sagCut k) s
    t.alloc.reclaim = some { r with victims := r.victims.filter (fun k => decide (¬ (k ∈ ks ∧ s.lowering k = true))) } ∧
    t.alloc.earmark = min r.shortfall (s.alloc.earmark +
      ((ks.filter (fun k => decide (k ∈ r.victims ∧ s.lowering k = true))).map (fun k => s.commitment k - s.floorOf k)).sum) := by
  induction ks generalizing s r with
  | nil =>
    refine ⟨?_, (min_eq_right he).symm⟩
    show s.alloc.reclaim = _
    simp [hr]
  | cons j js ih =>
    obtain ⟨hj, hjs⟩ := List.nodup_cons.1 hn
    have hne : ∀ k ∈ js, k ≠ j := fun k hk hkj => hj (hkj ▸ hk)
    have hspared : ∀ k ∈ js, s.Spares (s.sagCut j) k := fun k hk => spares_sagCut (hne k hk)
    have hlow : ∀ k ∈ js, (s.sagCut j).lowering k = s.lowering k := fun k hk => by
      rw [lowering_eq_any, lowering_eq_any, (hspared k hk).slot.leaseOf]
    obtain ⟨hreclaim, hearmark⟩ := reclaim_sagCut (k := j) hr he
    obtain ⟨hvictims, hsum⟩ := ih hjs hreclaim (by rw [hearmark]; exact min_le_left _ _)
    refine ⟨hvictims.trans ?_, hsum.trans ?_⟩
    · dsimp only
      rw [List.filter_filter]
      congr 2
      refine List.filter_congr fun k _ => ?_
      by_cases hk : k ∈ js
      · simp [hk, hlow k hk, hne k hk]
      · by_cases hkj : k = j <;> simp [hk, hkj, hj]
    · have hfilter : js.filter (fun k => decide (k ∈ r.victims.filter (fun i => decide (¬ (i = j ∧ s.lowering j = true))) ∧
          (s.sagCut j).lowering k = true)) = js.filter (fun k => decide (k ∈ r.victims ∧ s.lowering k = true)) :=
        List.filter_congr fun k hk => by simp [hlow k hk, hne k hk]
      have hfalls : ∀ k ∈ js.filter (fun k => decide (k ∈ r.victims ∧ s.lowering k = true)),
          (s.sagCut j).commitment k - (s.sagCut j).floorOf k = s.commitment k - s.floorOf k := fun k hk => by
        have hsame := hspared k (List.mem_of_mem_filter hk)
        rw [commitment_same hsame.slot hsame.cmd, floorOf_of_cmd hsame.cmd]
      dsimp only
      rw [hfilter, List.map_congr_left hfalls, hearmark, List.filter_cons]
      generalize js.filter (fun k => decide (k ∈ r.victims ∧ s.lowering k = true)) = cut
      by_cases hcut : j ∈ r.victims ∧ s.lowering j = true
      · rw [if_pos hcut, if_pos (decide_eq_true hcut), List.map_cons, List.sum_cons]; omega
      · rw [if_neg hcut, if_neg (by rw [decide_eq_false hcut]; decide)]; omega

/-! ### The settlements -/

/-- What the parts of a settlement have in common: reclaim and earmark stand, or the reclaim is abandoned with the beneficiary's entry
(R63), and notices are only added. -/
structure State.Settling (s t : State) : Prop where
  reclaim : t.alloc.reclaim = none ∨ s.ReclaimSame t
  notices : s.notices.records <+: t.notices.records

theorem State.Settling.trans (h : s.Settling t) (g : t.Settling u) : s.Settling u := by
  refine ⟨?_, h.notices.trans g.notices⟩
  rcases g.reclaim with g | ⟨greclaim, gearmark⟩
  · exact .inl g
  · rcases h.reclaim with h | ⟨hreclaim, hearmark⟩
    · exact .inl (greclaim.trans h)
    · exact .inr ⟨greclaim.trans hreclaim, gearmark.trans hearmark⟩

theorem State.Settling.of_same (ha : t.alloc = s.alloc) (hn : t.notices = s.notices) : s.Settling t :=
  ⟨.inr ⟨by rw [ha], by rw [ha]⟩, by rw [hn]⟩

theorem settling_refuseClaim {o : EntryOrigin} {r : Reason} (ho : o ≠ .host) : s.Settling (s.refuseClaim k o r w) := by
  obtain ⟨_, hgone, hsame⟩ := refuseClaim_reclaim (s := s) (k := k) (r := r) (w := w) ho
  by_cases h : s.entryOf k = none ∨ s.isBeneficiary k = false
  · obtain ⟨hreclaim, hearmark, hnotices⟩ := hsame h
    exact ⟨.inr ⟨hreclaim, hearmark⟩, by rw [hnotices]; exact take_records ..⟩
  · rw [not_or, Bool.not_eq_false] at h
    obtain ⟨hreclaim, _, hnotices⟩ := hgone (Option.isSome_iff_ne_none.2 h.1) h.2
    exact ⟨.inl hreclaim, by rw [hnotices]; exact (take_records ..).trans (take_records ..)⟩

theorem settling_denyEntry {r : Reason} : s.Settling (s.denyEntry k r) := by
  cases he : s.entryOf k with
  | none => rw [denyEntry_of_none he]; exact .of_same rfl rfl
  | some e => rw [denyEntry_of_entry he]; exact settling_refuseClaim (by decide)

theorem settling_restoreClaim : s.Settling (s.takeClaim k .restore w 1) := by
  cases h : s.admission k (s.restoredTier k w) 1 with
  | some r => rw [takeClaim_restore_refused h]; exact settling_refuseClaim (by decide)
  | none =>
    obtain ⟨n, heq⟩ := takeClaim_restore_passed h
    rw [heq]
    unfold State.putRestore
    split <;> exact ⟨.inr ⟨rfl, rfl⟩, take_records ..⟩

theorem settling_removeEntry : s.Settling (s.removeEntry k) := by
  obtain ⟨hsame, hgone⟩ := removeEntry_reclaim (s := s) (k := k)
  refine ⟨?_, ?_⟩
  · by_cases h : s.isBeneficiary k = false ∨ s.entryOf k = none
    · exact .inr (hsame h)
    · rw [not_or, Bool.not_eq_false] at h
      exact .inl (hgone (Option.isSome_iff_ne_none.2 h.2) h.1).1
  · unfold State.removeEntry
    split
    · exact List.prefix_refl _
    · dsimp only
      split
      · exact notices_endReclaim (s := (s.unqueue k).wantPass true) 2
      · exact List.prefix_refl _

theorem settling_endSession {c : Reason} {st : SessState} : s.Settling (s.endSession k c st) := by
  have hteardown : (s.removeEntry k).Settling (s.teardown k c st) := by
    refine .of_same State.Dropped.alloc_teardown ?_
    unfold State.teardown
    dsimp only
    split
    · rw [State.modLine_notices, notices_enter, State.modMon_notices, State.modSess_notices, State.modLine_notices]
    · rw [notices_enter, State.modMon_notices, State.modSess_notices, State.modLine_notices]
  exact (settling_removeEntry.trans hteardown).trans ⟨.inr ⟨rfl, rfl⟩, take_records ..⟩

theorem settling_settleRestoring : s.Settling (s.settleRestoring k w) := by
  have henter : s.Settling (s.enter k .standby) := .of_same rfl rfl
  have hsettle : s.Settling (s.settle k) := by
    unfold State.settle
    split
    · dsimp only
      split
      · exact henter
      · exact henter.trans settling_denyEntry
    · exact settling_endSession
  unfold State.settleRestoring State.restore
  dsimp only
  split
  · split
    · exact hsettle.trans settling_restoreClaim
    · exact hsettle
  · exact hsettle

theorem settling_settles (f : Slot → Nat) (ks : List Slot) (s : State) :
    s.Settling (ks.foldl (fun t k => t.settleRestoring k (f k)) s) := by
  induction ks generalizing s with
  | nil => exact .of_same rfl rfl
  | cons j js ih => exact settling_settleRestoring.trans (ih _)

/-! ### The notices of the cuts -/

/-- A cut outside SHEDDING posts its CUT alone, and leaves the Allocator's state. -/
theorem notices_sagCut (hs : s.alloc.state ≠ .shedding) :
    (s.sagCut k).notices = s.notices.take .cut (some k) .sag false (s.grantedTier k) ∧ (s.sagCut k).alloc.state = s.alloc.state := by
  have honly := onlyAt_dropPost (s := s) (k := k) (n := .cut) (o := some k) (r := .sag) (w := s.grantedTier k)
  unfold State.sagCut
  rw [testShedEnd_of_not fun ⟨hshed, _⟩ => hs (honly.state ▸ hshed), State.post_notices, dropLease_notices]
  exact ⟨rfl, honly.state⟩

/-- The cuts of the slots `ks` post a CUT for each, in the order of the list, with the tier its lease had (R136). -/
theorem notices_sagCuts {ks : List Slot} (hn : ks.Nodup) (hs : s.alloc.state ≠ .shedding) :
    (ks.foldl (fun t k => t.sagCut k) s).notices =
      ks.foldl (fun q k => q.take .cut (some k) .sag false (s.grantedTier k)) s.notices := by
  induction ks generalizing s with
  | nil => rfl
  | cons j js ih =>
    obtain ⟨hj, hjs⟩ := List.nodup_cons.1 hn
    obtain ⟨hnotices, hstate⟩ := notices_sagCut (k := j) hs
    have htier : ∀ k ∈ js, (s.sagCut j).grantedTier k = s.grantedTier k := fun k hk => by
      have hne : k ≠ j := fun hkj => hj (hkj ▸ hk)
      unfold State.grantedTier
      rw [leaseOf_sagCut_ne hne]
    rw [List.foldl_cons, List.foldl_cons, ih hjs (by rw [hstate]; exact hs), hnotices]
    exact List.foldl_ext _ _ _ fun q k hk => by rw [htier k hk]

/-! ### The end of the happening -/

/-- In a sag no pass runs and no ramp starts: the end of the happening only tests the end of shedding (R71, R138). -/
theorem finish_of_sag (hc : s.alloc.sagCondition = true) (hp : s.power.hold = true) (hs : s.alloc.state ≠ .running) :
    s.finish = s.testShedEnd.withPassDue false := by
  have hstate : s.testShedEnd.alloc.state ≠ .running := by
    rcases sagFrame_testShedEnd.state hc with h | h <;> rw [h]
    · exact hs
    · decide
  unfold State.finish
  rw [passes_of_idle 4 fun hrun => absurd hrun hstate]
  exact handOn_of_busy (.inr (.inl (sagFrame_testShedEnd.hold.trans hp)))

/-- The end of the happening in a sag spares every slot and the reclaim. -/
theorem finish_in_sag (hc : s.alloc.sagCondition = true) (hp : s.power.hold = true) (hs : s.alloc.state ≠ .running) :
    s.SagFrame s.finish ∧ (∀ k, s.Spares s.finish k) ∧ s.Settling s.finish := by
  have hmark : ∀ u : State, u.SagFrame (u.withPassDue false) ∧ (∀ k, u.Spares (u.withPassDue false) k) ∧
      u.Settling (u.withPassDue false) := fun u =>
    ⟨⟨.refl u, rfl, rfl, rfl, rfl, fun _ => .inl rfl⟩, fun _ => .of_same ⟨rfl, rfl, rfl, rfl, rfl, rfl⟩ rfl rfl,
      .inr ⟨rfl, rfl⟩, List.prefix_refl _⟩
  have htest : s.Settling s.testShedEnd := by
    refine ⟨.inr ?_, testShedEnd_frame.1.notices⟩
    unfold State.testShedEnd
    split <;> exact ⟨rfl, rfl⟩
  obtain ⟨hframe, hspares, hsettling⟩ := hmark s.testShedEnd
  rw [finish_of_sag hc hp hs]
  exact ⟨sagFrame_testShedEnd.trans hframe, fun k => spares_testShedEnd.trans (hspares k), htest.trans hsettling⟩

/-! ### The begin of a sag -/

/-- What the cuts of a sag find: SAG_BEGIN posted, the condition and the ramp hold set, and RUNNING left (R136). -/
def State.sagBegun (bulk : Nat) (s : State) : State :=
  { s with
    notices := s.notices.take .sagBegin none .sag false bulk
    alloc := { s.alloc with sagCondition := true, state := if s.alloc.state = .running then .sagHold else s.alloc.state }
    power := { s.power with hold := true } }

/-- The slots of a sag after its cuts. -/
def State.sagCuts (bulk : Nat) (s : State) : State := s.sagVictims.foldl (fun t k => t.sagCut k) (s.sagBegun bulk)

/-- The slots of a sag after their settlements. -/
def State.sagSettles (bulk : Nat) (s : State) : State :=
  s.sagVictims.foldl (fun t k => t.settleRestoring k (s.grantedTier k)) (s.sagCuts bulk)

theorem exec_sagBegin {bulk : Nat} (hd : s.store.startDone = true) :
    exec (.sagBegin bulk) s = .next ((s.taken (.sagBegin bulk)).sagSettles bulk).finish := congrArg Host.Outcome.next (if_pos hd)

theorem mem_sagVictims : k ∈ s.sagVictims ↔ (s.policyOf k).cls = .deferrable ∧ (s.leaseOf k).isSome = true := by
  unfold State.sagVictims
  rw [List.mem_filter, Bool.and_eq_true, decide_eq_true_eq]
  exact and_iff_right (mem_allSlots k)

variable {bulk : Nat}

theorem sagFrame_sagSettles : (s.sagBegun bulk).SagFrame (s.sagSettles bulk) :=
  (foldl_sagFrame (fun _ _ => sagFrame_sagCut) _).trans (foldl_sagFrame (fun _ _ => onlyAt_settleRestoring.sagFrame) _)

theorem state_sagBegun : (s.sagBegun bulk).alloc.state ≠ .running := by
  unfold State.sagBegun
  dsimp only
  split
  · decide
  · assumption

/-- What the begin of a sag comes to at its end (R136, R138). -/
theorem finish_sagSettles : (s.sagBegun bulk).SagFrame (s.sagSettles bulk).finish ∧
    (s.sagSettles bulk).finish.alloc.state ≠ .running ∧ (∀ k, (s.sagSettles bulk).Spares (s.sagSettles bulk).finish k) ∧
    (s.sagCuts bulk).Settling (s.sagSettles bulk).finish := by
  have hframe := sagFrame_sagSettles (s := s) (bulk := bulk)
  have hstate : ∀ t, (s.sagBegun bulk).SagFrame t → t.alloc.state ≠ .running := fun t h => by
    rcases h.state rfl with h | h <;> rw [h]
    · exact state_sagBegun
    · decide
  obtain ⟨hend, hspares, hsettling⟩ := finish_in_sag hframe.condition hframe.hold (hstate _ hframe)
  exact ⟨hframe.trans hend, hstate _ (hframe.trans hend), hspares, (settling_settles _ _ _).trans hsettling⟩

theorem spares_sagBegun : s.Spares (s.sagBegun bulk) k := ⟨⟨rfl, rfl, rfl, rfl, rfl, rfl⟩, rfl, id, id⟩

/-- A slot that a sag does not cut stands as it stood (R136). -/
theorem spares_sagSettles (hk : k ∉ s.sagVictims) : s.Spares (s.sagSettles bulk) k :=
  (spares_sagBegun.trans (foldl_spares (fun _ _ h => spares_sagCut h) hk _)).trans
    (foldl_spares (fun _ _ h => spares_settleRestoring h) hk _)

/-- A slot that a sag cuts has lost its lease, and its session has settled (R136). -/
theorem sagSettled_sagSettles (hk : k ∈ s.sagVictims) : s.SagSettled (s.sagSettles bulk) k (s.grantedTier k) := by
  obtain ⟨v, hbefore, hafter⟩ := foldl_around (f := fun t k => t.sagCut k) (fun _ _ h => spares_sagCut h) hk sagVictims_nodup
    (s.sagBegun bulk)
  have hcut : s.CutAt (s.sagCuts bulk) k := (cutAt_sagCut (spares_sagBegun.trans hbefore) (sagVictims_lease hk)).spared hafter
  obtain ⟨v', hbefore', hafter'⟩ := foldl_around (f := fun t k => t.settleRestoring k (s.grantedTier k))
    (fun _ _ h => spares_settleRestoring h) hk sagVictims_nodup (s.sagCuts bulk)
  exact (sagSettled_settleRestoring (hcut.spared hbefore')).spared hafter'

/-- Where a sag cuts a LOWER. -/
theorem mem_sagVictims_lowering : k ∈ s.sagVictims ∧ s.lowering k = true ↔
    (s.policyOf k).cls = .deferrable ∧ (s.leaseOf k).any Lease.lowering = true := by
  rw [mem_sagVictims, lowering_eq_any]
  cases s.leaseOf k <;> simp

/-- The marked LOWERs that a sag cuts, among all eight slots. -/
theorem sagVictims_marked (marked : List Slot) : s.sagVictims.filter (fun k => decide (k ∈ marked ∧ s.lowering k = true)) =
    allSlots.filter (fun k => decide (k ∈ marked ∧ (s.policyOf k).cls = .deferrable ∧
      (s.leaseOf k).any Lease.lowering = true)) := by
  unfold State.sagVictims
  rw [List.filter_filter]
  refine List.filter_congr fun k _ => ?_
  rw [lowering_eq_any]
  cases s.leaseOf k <;> simp [Bool.and_assoc, Bool.and_comm]

/-- Settles O18: the cuts and the settlements slot by slot, and the end of a happening that starts nothing. -/
theorem aSagCutsEveryDeferrableLease : Obligations.ASagCutsEveryDeferrableLease := by
  unfold Obligations.ASagCutsEveryDeferrableLease
  intro bulk s hd
  rw [exec_sagBegin hd]
  obtain ⟨hframe, hstate, hspares, hsettling⟩ := finish_sagSettles (s := s.taken (.sagBegin bulk)) (bulk := bulk)
  have hbegun : ((s.taken (.sagBegin bulk)).sagBegun bulk).alloc.state =
      if s.alloc.state = .running then .sagHold else s.alloc.state := rfl
  refine ⟨_, rfl, hframe.condition, hframe.hold, hframe.detector, fun hrun => ?_, fun hheld => ?_, hstate, hframe.host, hframe.raised,
    fun k hk => ?_, fun k hcls hl => ?_, fun r hr _ he hkept => ?_, fun _ hs => ?_⟩
  · rcases hframe.state rfl with h | h
    · rw [h, hbegun, if_pos hrun]
    · exact h
  · rcases hframe.state rfl with h | h
    · rw [h, hbegun, hheld]; rfl
    · exact h
  · have hnot : k ∉ s.sagVictims := by
      rw [mem_sagVictims]
      rintro ⟨hcls, hl⟩
      rcases hk with hk | hk
      · rw [hk] at hcls; cases hcls
      · rw [hk] at hl; cases hl
    exact ((spares_sagSettles (s := s.taken (.sagBegin bulk)) hnot).trans (hspares k)).slot
  · have hsettled := (sagSettled_sagSettles (s := s.taken (.sagBegin bulk)) (bulk := bulk) (mem_sagVictims.2 ⟨hcls, hl⟩)).spared
      (hspares k)
    exact ⟨hsettled.lease, hsettled.gate, hsettled.ramp, hsettled.queue, hsettled.holder, hsettled.state,
      fun hen => ⟨hsettled.admitFlag hen, hsettled.restored hen⟩⟩
  · obtain ⟨hreclaim, hearmark⟩ := hsettling.reclaim.resolve_left hkept
    obtain ⟨hvictims, hsum⟩ := reclaim_sagCuts (s := (s.taken (.sagBegin bulk)).sagBegun bulk) (sagVictims_nodup (s := s)) hr he
    refine ⟨hreclaim.trans (hvictims.trans ?_), hearmark.trans (hsum.trans ?_)⟩
    · exact congrArg (fun p => some { r with victims := r.victims.filter p })
        (funext fun k => decide_eq_decide.2 (not_congr mem_sagVictims_lowering))
    · exact congrArg (fun cut => min r.shortfall (s.alloc.earmark + (cut.map fun k => s.commitment k - s.floorOf k).sum))
        (sagVictims_marked r.victims)
  · refine List.IsPrefix.trans ?_ hsettling.notices
    have hcuts := notices_sagCuts (s := (s.taken (.sagBegin bulk)).sagBegun bulk) (sagVictims_nodup (s := s)) ?_
    · exact (congrArg NoticeQueue.records hcuts) ▸ List.prefix_refl _
    · rw [hbegun]
      split
      · decide
      · exact hs

end Sys2Proof.Machine
end

section
/-! PROOFS. The Policy Store: what its two copies hold, which copy is VALID, and the three phases of a store (R142, R143,
R148 to R150, R152). -/

namespace Sys2Proof.Machine

variable {s : State} {p : PolicyStore} {c : CopyId} {x : Copy} {i : Image}

/-! ### The two copies -/

@[simp] theorem CopyId.other_other (c : CopyId) : c.other.other = c := by cases c <;> rfl

@[simp] theorem PolicyStore.copyOf_setCopy_self : (p.setCopy c x).copyOf c = x := by cases c <;> rfl

@[simp] theorem PolicyStore.copyOf_other_setCopy : (p.setCopy c x).copyOf c.other = p.copyOf c.other := by cases c <;> rfl

/-- A copy's content is the only field that replacing it moves. -/
theorem PolicyStore.setCopy_eq : p.setCopy c x =
    { p with copyA := (p.setCopy c x).copyA, copyB := (p.setCopy c x).copyB } := by cases c <;> rfl

@[simp] theorem PolicyStore.setTarget_active : (p.setTarget x).active = p.active := by
  unfold setTarget; rw [setCopy_eq]

@[simp] theorem PolicyStore.setTarget_discard : (p.setTarget x).discard = p.discard := by
  unfold setTarget; rw [setCopy_eq]

@[simp] theorem PolicyStore.setTarget_snapshot : (p.setTarget x).snapshot = p.snapshot := by
  unfold setTarget; rw [setCopy_eq]

/-- A store leaves the active copy alone (R148). -/
theorem PolicyStore.copyOf_active_setTarget : (p.setTarget x).copyOf p.active = p.copyOf p.active := by
  have h : (p.setTarget x).copyOf p.active.other.other = p.copyOf p.active.other.other := copyOf_other_setCopy
  rwa [CopyId.other_other] at h

theorem PolicyStore.copyOf_other_setTarget : (p.setTarget x).copyOf p.active.other = x := copyOf_setCopy_self

theorem PolicyStore.setTarget_of_a (h : p.active = .a) : p.setTarget x = { p with copyB := x } := by
  cases p; cases h; rfl

theorem PolicyStore.setTarget_of_b (h : p.active = .b) : p.setTarget x = { p with copyA := x } := by
  cases p; cases h; rfl

/-! ### VALID -/

theorem PolicyRecord.inRange_iff {r : PolicyRecord} :
    r.inRange = true ↔ r.rank ≤ 7 ∧ r.floor ≤ r.cap ∧ 1 ≤ r.cap ∧ r.cap ≤ 4095 := by
  simp only [PolicyRecord.inRange, Bool.and_eq_true, decide_eq_true_eq]
  omega

theorem Settings.inRange_iff {x : Settings} : x.inRange = true ↔
    x.supplyLimit ≤ 32767 ∧ x.reserve ≤ x.supplyLimit ∧ 1 ≤ x.settleTime ∧ x.settleTime ≤ 255 ∧ 5 ≤ x.pollPeriod ∧
    x.pollPeriod ≤ 255 ∧ x.lineRetries ≤ 3 ∧ 5 ≤ x.linkGrace ∧ x.linkGrace ≤ 255 ∧ 5 ≤ x.rampTimeout ∧ x.rampTimeout ≤ 255 ∧
    x.rampRetries ≤ 3 ∧ (x.scanPeriod = 2 ∨ x.scanPeriod = 4 ∨ x.scanPeriod = 8 ∨ x.scanPeriod = 16) ∧
    1 ≤ x.overdrawCount ∧ x.overdrawCount ≤ 15 ∧ x.overdrawMargin ≤ 1023 ∧ x.passLimit ≤ 15 ∧ x.sagLevel ≤ 1000 ∧
    10 ≤ x.sagHoldoff ∧ x.sagHoldoff ≤ 255 := by
  simp only [Settings.inRange, Bool.and_eq_true, decide_eq_true_eq, List.contains_iff_mem, List.mem_cons, List.not_mem_nil,
    or_false, and_assoc]

theorem Image.ok_iff : i.ok = true ↔ (∀ k, (i.records.get k).inRange = true) ∧ i.settings.inRange = true ∧
    i.floorSum ≤ i.settings.supplyLimit - i.settings.reserve := by
  simp only [Image.ok, Bool.and_eq_true, decide_eq_true_eq, List.all_eq_true, mem_allSlots, forall_const, and_assoc]

/-- The generation is no part of what VALID asks. -/
theorem Image.ok_congr {j : Image} (hr : j.records = i.records) (hs : j.settings = i.settings) : j.ok = i.ok := by
  unfold Image.ok Image.floorSum
  rw [hr, hs]

theorem Copy.image?_unchecked : (Copy.unchecked i).image? = if i.ok = true ∧ i.check = 0xFFFF then some i else none := by
  unfold image? classify
  by_cases h : i.ok = true ∧ i.check = 0xFFFF
  · simp only [if_pos h]
  · simp only [if_neg h]

theorem Copy.image?_whole : (Copy.whole i).image? = if i.ok = true then some i else none := by
  unfold image? classify
  by_cases h : i.ok = true
  · simp only [if_pos h]
  · simp only [if_neg h]

/-- A VALID copy holds an image in range whose check value matches (R143). -/
theorem Copy.image?_eq_some_iff : x.image? = some i ↔
    (x = .whole i ∨ x = .unchecked i ∧ i.check = 0xFFFF) ∧ i.ok = true := by
  cases x with
  | blank => simp [image?, classify]
  | partly => simp [image?, classify]
  | unchecked j =>
    rw [image?_unchecked, Option.ite_none_right_eq_some]
    simp only [Option.some.injEq, reduceCtorEq, Copy.unchecked.injEq, false_or]
    constructor
    · rintro ⟨⟨hok, hc⟩, rfl⟩; exact ⟨⟨rfl, hc⟩, hok⟩
    · rintro ⟨⟨rfl, hc⟩, hok⟩; exact ⟨⟨hok, hc⟩, rfl⟩
  | whole j =>
    rw [image?_whole, Option.ite_none_right_eq_some]
    simp only [Option.some.injEq, reduceCtorEq, Copy.whole.injEq, false_and, or_false]
    constructor
    · rintro ⟨hok, rfl⟩; exact ⟨rfl, hok⟩
    · rintro ⟨rfl, hok⟩; exact ⟨hok, rfl⟩

/-- Settles O7: VALID is a check value that matches and an image in range, and in range field by field. -/
theorem aValidCopyKeepsTheFloorLaw : Obligations.AValidCopyKeepsTheFloorLaw := by
  unfold Obligations.AValidCopyKeepsTheFloorLaw
  intro c i
  rw [Copy.image?_eq_some_iff, Image.ok_iff, Settings.inRange_iff]
  simp only [PolicyRecord.inRange_iff]
  rfl

/-! ### The phases of a store -/

theorem exec_storePolicy (hd : s.store.startDone = true) (hi : s.store.state = .idle) :
    exec .storePolicy s = .next s.storePolicy := by
  have hfree : s.busy = false := by unfold State.busy; rw [hi]; rfl
  refine congrArg Host.Outcome.next ((if_pos hd).trans ?_)
  unfold State.command
  rw [if_neg (by rw [hfree]; decide)]

theorem exec_eraseComplete (hd : s.store.startDone = true) : exec .eraseComplete s = .next s.eraseDone :=
  congrArg Host.Outcome.next (if_pos hd)

theorem exec_programComplete (hd : s.store.startDone = true) : exec .programComplete s = .next s.programDone :=
  congrArg Host.Outcome.next (if_pos hd)

theorem exec_verifyComplete {o : VerifyOutcome} (hd : s.store.startDone = true) :
    exec (.verifyComplete o) s = .next (s.verifyDone o) := congrArg Host.Outcome.next (if_pos hd)

theorem eraseDone_of_erasing (h : s.store.state = .erasing) :
    s.eraseDone = s.modStore (fun p => { p.setTarget .blank with state := .programming }) := if_pos h

theorem eraseDone_of_ne (h : s.store.state ≠ .erasing) : s.eraseDone = s := if_neg h

theorem programDone_of_programming (h : s.store.state = .programming) (hi : s.store.snapshot = some i) :
    s.programDone = s.modStore (fun p => { p.setTarget (.unchecked i) with state := .verifying }) := by
  unfold State.programDone; rw [h, hi]

theorem programDone_of_ne (h : s.store.state ≠ .programming) : s.programDone = s := by
  unfold State.programDone
  split
  · exact absurd ‹_› h
  · rfl

theorem verifyDone_of_ne {o : VerifyOutcome} (h : s.store.state ≠ .verifying) : s.verifyDone o = s := by
  unfold State.verifyDone
  split
  · exact absurd ‹_› h
  · rfl

theorem verifyDone_success (h : s.store.state = .verifying) (hi : s.store.snapshot = some i) :
    s.verifyDone .success = s.storeGood i := by
  unfold State.verifyDone; rw [h, hi]

/-- What a failed verification leaves in the target (R150). -/
theorem verifyDone_failure {o : VerifyOutcome} (h : s.store.state = .verifying) (hi : s.store.snapshot = some i)
    (ho : (o, x) ∈ [(VerifyOutcome.fieldDiffers true, Copy.blank), (.fieldDiffers false, .partly), (.checkDiffers, .partly)]) :
    s.verifyDone o = s.storeBad x := by
  unfold State.verifyDone
  rw [h, hi]
  simp only [List.mem_cons, Prod.mk.injEq, List.not_mem_nil, or_false] at ho
  obtain ⟨rfl, rfl⟩ | ⟨rfl, rfl⟩ | ⟨rfl, rfl⟩ := ho <;> rfl

/-- The result of a store reaches the host (R150, R160). -/
theorem endStore_of_kept {r : CmdResult} (h : s.store.discard = false) : s.endStore r =
    { s.answered r with store := { s.store with state := .idle, snapshot := none, discard := false } } := by
  unfold State.endStore
  rw [h]; rfl

/-- The result of a store that a host port reset has discarded does not (R152). -/
theorem endStore_of_discarded {r : CmdResult} (h : s.store.discard = true) : s.endStore r =
    { s with store := { s.store with state := .idle, snapshot := none, discard := false } } := by
  unfold State.endStore
  rw [h]; rfl

theorem storeGood_of_kept (h : s.store.discard = false) : s.storeGood i =
    { s.answered .ok with
      store := { s.store.setTarget (.whole i) with
        state := .idle, snapshot := none, discard := false, active := s.store.active.other, activeGen := i.generation }
      notices := s.notices.take .storeDone none .none false i.generation.toNat } := by
  unfold State.storeGood
  rw [h, endStore_of_kept (PolicyStore.setTarget_discard.trans h)]; rfl

theorem storeGood_of_discarded (h : s.store.discard = true) : s.storeGood i =
    { s with store := { s.store.setTarget (.whole i) with
        state := .idle, snapshot := none, discard := false, active := s.store.active.other, activeGen := i.generation } } := by
  unfold State.storeGood
  rw [h, endStore_of_discarded (PolicyStore.setTarget_discard.trans h)]; rfl

theorem storeBad_of_kept (h : s.store.discard = false) : s.storeBad x =
    { s.answered .storeFail with
      store := { s.store.setTarget x with state := .idle, snapshot := none, discard := false } } :=
  endStore_of_kept (PolicyStore.setTarget_discard.trans h)

theorem storeBad_of_discarded (h : s.store.discard = true) : s.storeBad x =
    { s with store := { s.store.setTarget x with state := .idle, snapshot := none, discard := false } } :=
  endStore_of_discarded (PolicyStore.setTarget_discard.trans h)

/-- Settles O45: each row in its own state of the store, and in the others. -/
theorem aStoreWritesTheOtherCopy : Obligations.AStoreWritesTheOtherCopy := by
  unfold Obligations.AStoreWritesTheOtherCopy
  intro s hd p put
  have hput : put = fun x => s.store.setTarget x := by
    funext x
    cases hact : s.store.active with
    | a => rw [PolicyStore.setTarget_of_a hact]; dsimp only [put, p]; rw [hact]
    | b => rw [PolicyStore.setTarget_of_b hact]; dsimp only [put, p]; rw [hact]
  clear_value put
  subst hput
  refine ⟨fun hi => exec_storePolicy hd hi, fun he => ?_, fun he => ?_, fun i hp hi => ?_, fun hp => ?_, fun hv o => ?_,
    fun i hv hi => ⟨⟨fun hdis => ?_, fun hdis => ?_⟩, fun o x ho => ⟨fun hdis => ?_, fun hdis => ?_⟩⟩⟩
  · rw [exec_eraseComplete hd, eraseDone_of_erasing he]; rfl
  · rw [exec_eraseComplete hd, eraseDone_of_ne he]
  · rw [exec_programComplete hd, programDone_of_programming hp hi]; rfl
  · rw [exec_programComplete hd, programDone_of_ne hp]
  · rw [exec_verifyComplete hd, verifyDone_of_ne hv]
  · rw [exec_verifyComplete hd, verifyDone_success hv hi, storeGood_of_kept hdis]
  · rw [exec_verifyComplete hd, verifyDone_success hv hi, storeGood_of_discarded hdis]
  · rw [exec_verifyComplete hd, verifyDone_failure hv hi ho, storeBad_of_kept hdis]
  · rw [exec_verifyComplete hd, verifyDone_failure hv hi ho, storeBad_of_discarded hdis]

end Sys2Proof.Machine
end

section
/-! PROOFS. Device reset and the load: what they leave of the copies, which copy the load takes, and a stored policy that comes
back (R144, R145, R146, R151). -/

namespace Sys2Proof.Machine

variable {s t : State} {p : PolicyStore} {i : Image}

/-! ### Device reset -/

/-- A reset leaves the active copy alone, whatever store it cuts short (R151). -/
theorem PolicyStore.copyOf_active_cutShort {reached : Bool} :
    (p.cutShort reached).copyOf p.active = p.copyOf p.active := by
  unfold cutShort
  split
  · rfl
  · exact copyOf_active_setTarget
  · exact copyOf_active_setTarget
  · split
    · exact copyOf_active_setTarget
    · exact copyOf_active_setTarget
    · rfl

theorem PolicyStore.cutShort_of_idle {reached : Bool} (h : p.state = .idle) : p.cutShort reached = p := by
  unfold cutShort; rw [h]

theorem copyOf_deviceReset {reached : Bool} {c : CopyId} :
    (s.deviceReset reached).store.copyOf c = (s.store.cutShort reached).copyOf c := by cases c <;> rfl

/-- Settles O5: the blocks are those of the reset state, and the target is what its store's phase left (R151). -/
theorem deviceResetKeepsTheCopies : Obligations.DeviceResetKeepsTheCopies := by
  unfold Obligations.DeviceResetKeepsTheCopies
  intro reached s
  refine ⟨s.deviceReset reached, rfl, rfl, rfl, rfl, rfl, rfl, rfl, rfl, rfl, rfl, rfl, rfl, rfl,
    copyOf_deviceReset.trans PolicyStore.copyOf_active_cutShort, copyOf_deviceReset.trans ?_⟩
  unfold PolicyStore.cutShort
  cases s.store.state with
  | idle => rfl
  | erasing => cases reached <;> exact PolicyStore.copyOf_other_setTarget
  | programming => cases reached <;> exact PolicyStore.copyOf_other_setTarget
  | verifying =>
    cases s.store.snapshot with
    | none => rfl
    | some i => cases reached <;> exact PolicyStore.copyOf_other_setTarget

/-! ### The load -/

theorem newer_iff {x y : Word} : newer x y = true ↔ 1 ≤ (x - y).toNat ∧ (x - y).toNat ≤ 32767 := by
  simp only [newer, Bool.and_eq_true, decide_eq_true_eq]

/-- The source and the image that the load takes. -/
def PolicyStore.choice (p : PolicyStore) : Source × Option Image := chooseSource p.copyA.image? p.copyB.image?

theorem exec_policyLoad_unloaded (hd : s.store.startDone = false) : exec .policyLoad s = .next s.load := by
  rw [exec_policyLoad, hd]; rfl

theorem cmd_load : s.load.cmd =
    { s.cmd with policy := (loadedImage s.store.choice.2).records, settings := (loadedImage s.store.choice.2).settings } := rfl

theorem Source.active_eq (x : Source) : x.active = if x = .a then .a else .b := by cases x <;> rfl

theorem store_load : s.load.store = { s.store with
    active := s.store.choice.1.active
    activeGen := (loadedImage s.store.choice.2).generation
    report := ⟨s.store.copyA.classify, s.store.copyB.classify, s.store.choice.1,
      (loadedImage s.store.choice.2).generation.setWidth 8⟩
    startDone := true } := rfl

theorem sessOf_load (k : Slot) : s.load.sessOf k =
    { s.sessOf k with presence := if s.present.get k = true then .toInsertion 0 else .idle } := PerSlot.get_tabulate _ _

/-- Settles O6: the choice between the copies by which are VALID, and the load field by field. -/
theorem theLoadTakesTheNewerValidCopy : Obligations.TheLoadTakesTheNewerValidCopy := by
  unfold Obligations.TheLoadTakesTheNewerValidCopy
  intro s hd
  refine ⟨s.load, s.store.choice.1, loadedImage s.store.choice.2, exec_policyLoad_unloaded hd, ?_, cmd_load, ?_, rfl, rfl,
    sessOf_load, rfl, rfl, rfl, rfl, rfl, rfl, rfl⟩
  · unfold PolicyStore.choice
    cases s.store.copyA.image? with
    | none =>
      cases s.store.copyB.image? with
      | none => exact ⟨rfl, rfl⟩
      | some b => exact ⟨rfl, rfl⟩
    | some a =>
      cases s.store.copyB.image? with
      | none => exact ⟨rfl, rfl⟩
      | some b =>
        unfold chooseSource
        dsimp only
        by_cases hnew : newer b.generation a.generation = true
        · rw [if_pos hnew, if_pos (newer_iff.1 hnew)]; exact ⟨rfl, rfl⟩
        · rw [if_neg hnew, if_neg (mt newer_iff.2 hnew)]; exact ⟨rfl, rfl⟩
  · rw [store_load, Source.active_eq]

/-! ### A stored policy comes back -/

/-- The next generation is newer than the one before it, and not the other way round (R144). -/
theorem newer_succ (g : Word) : newer (g + 1) g = true ∧ newer g (g + 1) = false := by
  have hup : g + 1 - g = 1 := by bv_omega
  have hdown : g - (g + 1) = 65535 := by bv_omega
  unfold newer
  rw [hup, hdown]
  exact ⟨rfl, rfl⟩

/-- Of two copies the load takes the one with the next generation, and it takes the only VALID one (R144). -/
theorem choice_of_next {c : CopyId} (hi : (p.copyOf c.other).image? = some i)
    (hold : ∀ j, (p.copyOf c).image? = some j → j.generation + 1 = i.generation) :
    p.choice.1.active = c.other ∧ p.choice.2 = some i := by
  unfold PolicyStore.choice chooseSource
  cases c with
  | a =>
    rw [show p.copyB.image? = some i from hi]
    cases ha : p.copyA.image? with
    | none => exact ⟨rfl, rfl⟩
    | some j =>
      dsimp only
      rw [← hold j ha, (newer_succ j.generation).1]
      exact ⟨rfl, rfl⟩
  | b =>
    rw [show p.copyA.image? = some i from hi]
    cases hb : p.copyB.image? with
    | none => exact ⟨rfl, rfl⟩
    | some j =>
      dsimp only
      rw [← hold j hb, (newer_succ j.generation).2]
      exact ⟨rfl, rfl⟩

/-- Store `q` is what store `p` has become in phase `st` of writing image `i` to its target (R149). -/
structure PolicyStore.Storing (p q : PolicyStore) (st : StoreState) (i : Image) : Prop where
  startDone : q.startDone = true
  state : q.state = st
  snapshot : q.snapshot = some i
  active : q.active = p.active
  kept : q.copyOf p.active = p.copyOf p.active

/-- A phase of a store writes its target and hands on to the next. -/
theorem PolicyStore.Storing.next {q : PolicyStore} {st st' : StoreState} {x : Copy} (h : p.Storing q st i) :
    p.Storing { q.setTarget x with state := st' } st' i where
  startDone := (setTarget_startDone q x).trans h.startDone
  state := rfl
  snapshot := setTarget_snapshot.trans h.snapshot
  active := setTarget_active.trans h.active
  kept := by
    have hkept : (q.setTarget x).copyOf q.active = q.copyOf q.active := copyOf_active_setTarget
    rw [h.active] at hkept
    exact hkept.trans h.kept

theorem storing_of_storePolicy (hd : s.store.startDone = true) (hi : s.store.state = .idle)
    (h : exec .storePolicy s = .next t) : s.store.Storing t.store .erasing s.snapshot := by
  rw [exec_storePolicy hd hi] at h
  cases h
  exact ⟨(PolicyStore.setTarget_startDone _ _).trans hd, rfl, rfl, PolicyStore.setTarget_active,
    PolicyStore.copyOf_active_setTarget⟩

theorem PolicyStore.Storing.erased (hp : p.Storing s.store .erasing i) (h : exec .eraseComplete s = .next t) :
    p.Storing t.store .programming i := by
  rw [exec_eraseComplete hp.startDone, eraseDone_of_erasing hp.state] at h
  cases h
  exact hp.next

theorem PolicyStore.Storing.programmed (hp : p.Storing s.store .programming i) (h : exec .programComplete s = .next t) :
    p.Storing t.store .verifying i := by
  rw [exec_programComplete hp.startDone, programDone_of_programming hp.state hp.snapshot] at h
  cases h
  exact hp.next

theorem store_storeGood : (s.storeGood i).store = { s.store.setTarget (.whole i) with
    state := .idle, snapshot := none, discard := false, active := s.store.active.other, activeGen := i.generation } := by
  cases h : s.store.discard with
  | false => rw [storeGood_of_kept h]
  | true => rw [storeGood_of_discarded h]

/-- A store that verifies has left its image in the target, and the other copy as it was (R150). -/
theorem PolicyStore.Storing.verified (hp : p.Storing s.store .verifying i) (h : exec (.verifyComplete .success) s = .next t) :
    t.store.state = .idle ∧ t.store.copyOf p.active.other = .whole i ∧ t.store.copyOf p.active = p.copyOf p.active := by
  rw [exec_verifyComplete hp.startDone, verifyDone_success hp.state hp.snapshot] at h
  cases h
  have hdone : p.Storing { s.store.setTarget (.whole i) with state := .idle } .idle i := hp.next
  have htarget : (s.store.setTarget (.whole i)).copyOf s.store.active.other = .whole i := copyOf_other_setTarget
  rw [hp.active] at htarget
  rw [store_storeGood]
  exact ⟨rfl, htarget, hdone.kept⟩

/-- A reset while no store runs leaves both copies, and the load then finds them (R144). -/
theorem copyOf_deviceReset_of_idle {reached : Bool} {c : CopyId} (h : s.store.state = .idle) :
    (s.deviceReset reached).store.copyOf c = s.store.copyOf c := by
  rw [copyOf_deviceReset, PolicyStore.cutShort_of_idle h]

/-- Settles O46: the store leaves the live policy whole in the target, the reset leaves both copies, and the load takes the
target as the VALID copy with the next generation. -/
theorem aStoredPolicySurvivesAReset : Obligations.AStoredPolicySurvivesAReset := by
  unfold Obligations.AStoredPolicySurvivesAReset
  intro reached s s1 s2 s3 s4 s5 t hpolicy hd hidle hgen hstore herase hprogram hverify hreset hload
  have herasing := storing_of_storePolicy hd hidle hstore
  have hverifying := (herasing.erased herase).programmed hprogram
  obtain ⟨hdone, htarget, hkept⟩ := hverifying.verified hverify
  cases hreset
  rw [exec_policyLoad_unloaded rfl] at hload
  cases hload
  have hvalid : ((s4.deviceReset reached).store.copyOf s.store.active.other).image? = some s.snapshot := by
    rw [copyOf_deviceReset_of_idle hdone, htarget]
    exact Copy.image?_eq_some_iff.2 ⟨.inl rfl, (Image.ok_congr rfl rfl).trans hpolicy⟩
  have hnext : ∀ j, ((s4.deviceReset reached).store.copyOf s.store.active).image? = some j →
      j.generation + 1 = s.snapshot.generation := by
    rw [copyOf_deviceReset_of_idle hdone, hkept]
    exact fun j hj => congrArg (· + 1) (hgen j hj)
  obtain ⟨hactive, himage⟩ := choice_of_next hvalid hnext
  rw [cmd_load, store_load, himage]
  exact ⟨rfl, rfl, rfl, hactive, (copyOf_deviceReset_of_idle hdone).trans hkept⟩

end Sys2Proof.Machine
end

section
/-! PROOFS. Until the load is complete nothing acts: a row moves the port's place in its transaction at most, and a read drives
the register's reset value (R144, R145, R154). -/

namespace Sys2Proof.Machine

variable {s : State} {k : Slot} {write : Bool} {a : BitVec 7} {c : Instr}

/-! ### A word before the load -/

theorem whenLoaded_unloaded {f : State → State} (hd : s.store.startDone = false) : s.whenLoaded f = s :=
  if_neg (by rw [hd]; decide)

theorem endTransaction_unloaded (hd : s.store.startDone = false) : s.endTransaction = s.modHost HostPort.release := by
  have hnone : ∀ f, (s.modHost HostPort.release).whenLoaded f = s.modHost HostPort.release :=
    fun _ => whenLoaded_unloaded hd
  unfold State.endTransaction
  dsimp only
  rw [hnone, ite_self]

/-- A word that does not continue the transaction acts as the first word after the transaction's end, which takes no command
before the load. -/
theorem touch_unloaded_of_not_fits (hd : s.store.startDone = false) (h : ¬ s.WordFits write a) :
    s.touch write a = (s.modHost HostPort.release).touch write a := by
  rw [State.touch_of_not_fits h, endTransaction_unloaded hd, State.touch_of_fits (s := s.modHost HostPort.release) (.inl rfl)]
  simp [State.modHost, HostPort.nextWord]

/-- The row is a write word at `a`. -/
def WritesAt (c : Instr) (a : BitVec 7) : Prop := ∃ f : State → State, ∀ u, exec c u = .next ((u.touch true a).whenLoaded f)

/-- The row is a read word at `a`. -/
def ReadsAt (c : Instr) (a : BitVec 7) : Prop := ∀ u, exec c u = .next (u.fetch a)

/-- A write is discarded without a flag: it only moves the port on in its transaction (R145). -/
theorem WritesAt.unloaded (hw : WritesAt c a) (hd : s.store.startDone = false) (h : s.WordFits true a) :
    exec c s = .next { s with host := { s.host with burst := some ⟨true, nextAddr a⟩ } } := by
  obtain ⟨f, hf⟩ := hw
  rw [hf, State.touch_of_fits h]
  exact congrArg Host.Outcome.next (whenLoaded_unloaded hd)

theorem WritesAt.unloaded_of_not_fits (hw : WritesAt c a) (hd : s.store.startDone = false) (h : ¬ s.WordFits true a) :
    exec c s = exec c (s.modHost HostPort.release) := by
  obtain ⟨f, hf⟩ := hw
  rw [hf, hf, touch_unloaded_of_not_fits hd h]

theorem unloadedRegister_eq : unloadedRegister a = if a = 0x00 then 0x0B08 else if a = 0x01 then 0x0001 else 0 := by
  by_cases h0 : a = 0x00
  · rw [h0]; rfl
  by_cases h1 : a = 0x01
  · rw [h1]; rfl
  rw [if_neg h0, if_neg h1]
  unfold unloadedRegister
  split
  · exact absurd (BitVec.eq_of_toNat_eq ‹_›) h0
  · exact absurd (BitVec.eq_of_toNat_eq ‹_›) h1
  · rfl

/-- A read drives the register's reset value and has no side effect (R145). -/
theorem ReadsAt.unloaded (hr : ReadsAt c a) (hd : s.store.startDone = false) (h : s.WordFits false a) :
    exec c s = .next { s with host := { s.host with burst := some ⟨false, nextAddr a⟩, sdo := unloadedRegister a } } := by
  rw [hr]
  unfold State.fetch
  rw [State.touch_of_fits h]
  exact congrArg Host.Outcome.next (if_pos hd)

theorem ReadsAt.unloaded_of_not_fits (hr : ReadsAt c a) (hd : s.store.startDone = false) (h : ¬ s.WordFits false a) :
    exec c s = exec c (s.modHost HostPort.release) := by
  rw [hr, hr]
  unfold State.fetch
  rw [touch_unloaded_of_not_fits hd h]

/-! ### The other rows before the load -/

theorem exec_presentChange_unloaded {v : Bool} (hd : s.store.startDone = false) :
    exec (.presentChange k v) s = .next { s with present := s.present.set k v } := by
  refine congrArg Host.Outcome.next ?_
  unfold State.presentChange
  split
  · rename_i hsame
    have hset : s.present.set k v = s.present := PerSlot.ext_get fun j => by
      rw [PerSlot.get_set]
      split
      · rename_i hj; rw [hj, hsame]
      · rfl
    rw [hset]
  · exact whenLoaded_unloaded hd

/-- Settles O51: each row by what it asks of the load: an event or a host command, a report or a message, a pin, a write word,
the end of a transaction, a read word. -/
theorem nothingActsBeforeTheLoad : Obligations.NothingActsBeforeTheLoad := by
  unfold Obligations.NothingActsBeforeTheLoad
  intro s k b b' w w' addr reg v v' o samples n bytes strike serial draws hd
  have hplain : ∀ {f : State → State}, Host.Outcome.next (s.whenLoaded f) = (.next s : Host.Outcome State Fault Refusal) :=
    congrArg Host.Outcome.next (whenLoaded_unloaded hd)
  have htaken : ∀ {c : Instr} {f : State → State},
      Host.Outcome.next ((s.taken c).whenLoaded f) = (.next (s.taken c) : Host.Outcome State Fault Refusal) :=
    congrArg Host.Outcome.next (whenLoaded_unloaded hd)
  refine ⟨?_, ?_, exec_presentChange_unloaded hd, fun c a hc => ?_, congrArg Host.Outcome.next (endTransaction_unloaded hd),
    fun c a hc => ?_⟩
  · simp only [List.forall_mem_cons, List.not_mem_nil, false_imp_iff, implies_true, and_true]
    and_intros <;> exact hplain
  · simp only [List.forall_mem_cons, List.not_mem_nil, false_imp_iff, implies_true, and_true]
    exact ⟨htaken, htaken, htaken, htaken, htaken, htaken, htaken, htaken, rfl⟩
  · have hw : WritesAt c a := by
      simp only [List.mem_cons, Prod.mk.injEq, List.not_mem_nil, or_false] at hc
      rcases hc with ⟨rfl, rfl⟩ | ⟨rfl, rfl⟩ | ⟨rfl, rfl⟩ | ⟨rfl, rfl⟩ | ⟨rfl, rfl⟩ | ⟨rfl, rfl⟩ | ⟨rfl, rfl⟩ | ⟨rfl, rfl⟩ |
        ⟨rfl, rfl⟩ | ⟨rfl, rfl⟩ <;> exact ⟨_, fun _ => rfl⟩
    exact ⟨hw.unloaded hd, hw.unloaded_of_not_fits hd⟩
  · have hr : ReadsAt c a := by
      simp only [List.mem_cons, Prod.mk.injEq, List.not_mem_nil, or_false] at hc
      rcases hc with ⟨rfl, rfl⟩ | ⟨rfl, rfl⟩ | ⟨rfl, rfl⟩ <;> exact fun _ => rfl
    refine ⟨fun h => ?_, hr.unloaded_of_not_fits hd⟩
    rw [hr.unloaded hd h, unloadedRegister_eq]
    rfl

end Sys2Proof.Machine
end

section
/-! PROOFS. The passing of time with no command waiting: which events are due, and what a millisecond moves. -/

namespace Sys2Proof.Machine

variable {s : State} {k : Slot} {c : Instr}

/-! ### The events of one slot's timers -/

theorem Presence.due_eq_some_iff {x : Presence} : x.due k = some c ↔
    (∃ n, c = .insertion k ∧ x = .toInsertion n ∧ 50 ≤ n) ∨ (∃ n, c = .removal k ∧ x = .toRemoval n ∧ 2 ≤ n) := by
  cases x <;> simp [due, and_comm, eq_comm]

theorem Ramp.due_eq_some_iff {r : Ramp} : r.due k = some c ↔
    (c = .rampTimeout k ∧ r.state = .ramping ∧ r.timer = 0) ∨ (c = .backoffEnd k ∧ r.state = .backoff ∧ r.timer = 0) := by
  unfold due
  cases r.state <;> simp [and_comm, eq_comm]

theorem Lease.due_eq_some_iff {x : Option Lease} : due k x = some c ↔
    c = .recallDeadline k ∧ ∃ l t d o, x = some l ∧ l.trans = some (.lower t d o 0) := by
  unfold due
  cases x with
  | none => simp
  | some l =>
    dsimp only
    split
    · rename_i hx; simp [hx, eq_comm]
    · rename_i hx; simpa using fun _ t d o => hx t d o

/-- What an SLC's phase makes due (R95, R96). -/
def LinePhase.runOut (k : Slot) : LinePhase → Option Instr
  | .idle => none
  | .due e _ => if 3 ≤ e then some (.lineGapTimeout k) else none
  | .awaiting _ e => if 1 ≤ e then some (.responseTimeout k) else none
  | .receiving _ e => if 3 ≤ e then some (.responseTimeout k) else none

theorem LinePhase.runOut_eq_some_iff {x : LinePhase} : x.runOut k = some c ↔
    (∃ n, c = .lineGapTimeout k ∧ (∃ p, x = .due n p) ∧ 3 ≤ n) ∨
    (∃ n, c = .responseTimeout k ∧ ((∃ f, x = .awaiting f n) ∧ 1 ≤ n ∨ (∃ f, x = .receiving f n) ∧ 3 ≤ n)) := by
  cases x <;> simp [runOut, and_comm, eq_comm]

/-- A line's event is its phase's, else link grace, else the poll timer. -/
theorem Line.due_eq {l : Line} : l.due k = (l.phase.runOut k <|>
    ((if l.grace = some 0 then some (.linkGraceExpiry k) else none) <|> if l.poll = some 0 then some (.pollTimer k) else none)) := by
  unfold Line.due LinePhase.runOut
  cases l.phase <;> rfl

/-- Event `c` of slot `k` is due: one of its timers has run out. -/
def State.EventDue (s : State) (k : Slot) (c : Instr) : Prop :=
  (s.sessOf k).presence.due k = some c ∨ (s.rampOf k).due k = some c ∨ Lease.due k (s.leaseOf k) = some c ∨
    (s.lineOf k).phase.runOut k = some c ∨ (c = .linkGraceExpiry k ∧ (s.lineOf k).grace = some 0) ∨
    (c = .pollTimer k ∧ (s.lineOf k).poll = some 0)

/-- The event that a slot presents is one that is due. -/
theorem eventDue_of_slotDue (h : s.slotDue k = some c) : s.EventDue k c := by
  unfold State.slotDue at h
  rw [Line.due_eq] at h
  simp only [Option.orElse_eq_orElse, Option.orElse_eq_or, Option.or_eq_some_iff, Option.ite_none_right_eq_some,
    Option.some.injEq] at h
  obtain h | ⟨-, h | ⟨-, h | ⟨-, h | ⟨-, ⟨h, rfl⟩ | ⟨-, h, rfl⟩⟩⟩⟩⟩ := h
  · exact .inl h
  · exact .inr (.inl h)
  · exact .inr (.inr (.inl h))
  · exact .inr (.inr (.inr (.inl h)))
  · exact .inr (.inr (.inr (.inr (.inl ⟨rfl, h⟩))))
  · exact .inr (.inr (.inr (.inr (.inr ⟨rfl, h⟩))))

/-- A slot that presents no event has none due. -/
theorem not_eventDue_of_slotDue (h : s.slotDue k = none) : ¬ s.EventDue k c := by
  unfold State.slotDue at h
  rw [Line.due_eq] at h
  simp only [Option.orElse_eq_orElse, Option.orElse_eq_or, Option.or_eq_none_iff, ite_eq_right_iff, reduceCtorEq,
    imp_false] at h
  obtain ⟨hpresence, hramp, hlease, hphase, hgrace, hpoll⟩ := h
  simp [State.EventDue, hpresence, hramp, hlease, hphase, hgrace, hpoll]

/-! ### The event that is taken next -/

/-- Event `c` is due: the hold-off has run out (R139), or a slot's timer. -/
def State.Due (s : State) (c : Instr) : Prop :=
  (c = .sagEnd ∧ s.mon.sag = .holdoff ∧ s.mon.holdoff = 0) ∨ ∃ k, s.EventDue k c

theorem due_of_dueEvent (h : s.dueEvent = some c) : s.Due c := by
  unfold State.dueEvent at h
  split at h
  · cases h; exact .inl ⟨rfl, ‹_›⟩
  · obtain ⟨k, -, hk⟩ := List.exists_of_findSome?_eq_some h
    exact .inr ⟨k, eventDue_of_slotDue hk⟩

theorem not_due_of_dueEvent (h : s.dueEvent = none) : ¬ s.Due c := by
  unfold State.dueEvent at h
  split at h
  · cases h
  · rename_i hsag
    rintro (⟨-, hend⟩ | ⟨k, hk⟩)
    · exact hsag hend
    · exact not_eventDue_of_slotDue (List.findSome?_eq_none_iff.1 h k (mem_allSlots k)) hk

/-! ### One millisecond -/

theorem lineOf_tick (j : Slot) : s.tick.lineOf j = (s.lineOf j).tick := PerSlot.get_map _ _ _

/-- A millisecond moves the deadline of a LOWER and no other part of a lease (R17). -/
theorem Lease.tick_eq (l : Lease) : l.tick = { l with trans := l.trans.map fun
    | .raise t d o => .raise t d o
    | .lower t d o n => .lower t d o (n - 1) } := by
  obtain ⟨tag, tier, draw, short, trans⟩ := l
  rcases trans with _ | ⟨t, d, o⟩ | ⟨t, d, o, n⟩ <;> rfl

/-! ### The step -/

theorem step_of_empty (h : s.pending = []) : step s = idle s := by unfold step; rw [h]

theorem idle_unloaded (h : s.store.startDone = false) : idle s = .next s := if_neg (by rw [h]; decide)

theorem idle_of_raised {rest : List Instr} (hd : s.store.startDone = true) (h : s.raised = c :: rest) : idle s = exec c s := by
  unfold idle; rw [if_pos hd, h]

theorem idle_of_due (hd : s.store.startDone = true) (hr : s.raised = []) (h : s.dueEvent = some c) : idle s = exec c s := by
  unfold idle; rw [if_pos hd, hr, h]

theorem idle_of_quiet (hd : s.store.startDone = true) (hr : s.raised = []) (h : s.dueEvent = none) : idle s = .next s.tick := by
  unfold idle; rw [if_pos hd, hr, h]

/-- Settles O2: the branches of an idle step in their order, the events timer by timer, and the millisecond slot by slot. -/
theorem anEmptyQueueLetsTheBlockRunOn : Obligations.AnEmptyQueueLetsTheBlockRunOn := by
  unfold Obligations.AnEmptyQueueLetsTheBlockRunOn
  intro s hpending due
  have hdue : ∀ c, due c ↔ s.Due c := fun c => by
    refine or_congr Iff.rfl (exists_congr fun k => ?_)
    unfold State.EventDue
    rw [Presence.due_eq_some_iff, Ramp.due_eq_some_iff, Lease.due_eq_some_iff, LinePhase.runOut_eq_some_iff]
    simp only [exists_or, exists_const, or_assoc]
  clear_value due
  obtain rfl : due = s.Due := funext fun c => propext (hdue c)
  rw [step_of_empty hpending]
  refine ⟨idle_unloaded, fun hd => ⟨fun c rest hr => idle_of_raised hd hr, fun hr hc => ?_, fun hr hnone => ?_⟩⟩
  · obtain ⟨c, hc⟩ := hc
    cases h : s.dueEvent with
    | none => exact absurd hc (not_due_of_dueEvent h)
    | some e => exact ⟨e, due_of_dueEvent h, rfl, idle_of_due hd hr h⟩
  · have hquiet : s.dueEvent = none := Option.eq_none_iff_forall_ne_some.2 fun c hc => hnone c (due_of_dueEvent hc)
    refine ⟨hquiet, s.tick, idle_of_quiet hd hr hquiet, rfl, fun k => ⟨?_, ?_, rampOf_tick k, ?_⟩⟩
    · rw [sessOf_tick]
      cases (s.sessOf k).presence <;> rfl
    · rw [leaseOf_tick]
      exact congrArg (fun f => (s.leaseOf k).map f) (funext fun l => l.tick_eq)
    · rw [lineOf_tick]
      unfold Line.tick
      cases (s.lineOf k).phase <;> rfl

end Sys2Proof.Machine
end

section
/-! PROOFS. How the Command Unit takes a command: the slot field, BUSY, and the answer; the checks of APPLY_POLICY (R160, R161). -/

namespace Sys2Proof.Machine

variable {s : State} {k : Slot} {b : Byte} {c : Instr} {f : State → State} {g : Slot → State → State} {r : PolicyRecord}

/-! ### The slot field and BUSY -/

theorem slotOf?_of_val {n : Nat} (h : n = k.val) : slotOf? n = some k := by
  subst h; exact dif_pos k.isLt

theorem slotOf?_of_le {n : Nat} (h : 8 ≤ n) : slotOf? n = none := dif_neg (Nat.not_lt.2 h)

theorem busy_eq : s.busy = decide (s.store.state ≠ .idle) := by
  unfold State.busy
  by_cases h : s.store.state = .idle <;> simp [h]

theorem command_of_idle (h : s.store.state = .idle) : s.command f = f s :=
  if_neg (by rw [busy_eq, h]; decide)

theorem command_of_busy (h : s.store.state ≠ .idle) : s.command f = { s with host := { s.host with cmdOverrun := true } } :=
  if_pos (by rw [busy_eq]; exact decide_eq_true h)

/-- The row hands the command `f` to the Command Unit once the load is complete. -/
def Commands (c : Instr) (f : State → State) : Prop := ∀ u, exec c u = .next (u.whenLoaded (State.command f))

/-- The row hands the command `g`, with its slot field `b`, to the Command Unit once the load is complete. -/
def CommandsSlot (c : Instr) (b : Byte) (g : Slot → State → State) : Prop :=
  ∀ u, exec c u = .next (u.whenLoaded (State.slotCommand b g))

theorem Commands.exec_idle (h : Commands c f) (hd : s.store.startDone = true) (hi : s.store.state = .idle) :
    exec c s = .next (f s) := by
  rw [h]
  exact congrArg Host.Outcome.next ((if_pos hd).trans (command_of_idle hi))

/-- A command that comes while BUSY is discarded with CMD_OVERRUN (R160). -/
theorem Commands.exec_busy (h : Commands c f) (hd : s.store.startDone = true) (hi : s.store.state ≠ .idle) :
    exec c s = .next { s with host := { s.host with cmdOverrun := true } } := by
  rw [h]
  exact congrArg Host.Outcome.next ((if_pos hd).trans (command_of_busy hi))

theorem CommandsSlot.commands (h : CommandsSlot c b g) : Commands c (fun s =>
    match slotOf? b.toNat with
    | none => s.complete .badSlot
    | some k => g k s) := h

/-- A slot field of 8 or more names no slot (R160). -/
theorem CommandsSlot.exec_badSlot (h : CommandsSlot c b g) (hd : s.store.startDone = true) (hi : s.store.state = .idle)
    (hb : 8 ≤ b.toNat) : exec c s = .next (s.answered .badSlot) := by
  rw [h.commands.exec_idle hd hi, slotOf?_of_le hb]; rfl

theorem CommandsSlot.exec_slot (h : CommandsSlot c b g) (hd : s.store.startDone = true) (hi : s.store.state = .idle)
    (hb : b.toNat = k.val) : exec c s = .next (g k s) := by
  rw [h.commands.exec_idle hd hi, slotOf?_of_val hb]

/-! ### The checks of APPLY_POLICY -/

/-- What APPLY_POLICY of record `r` adds to the commitment of slot `k`; below 0 it is a fall (R161). -/
def State.rise (s : State) (k : Slot) (r : PolicyRecord) : Int :=
  (max r.floorTerm (Lease.term (s.leaseOf k)) : Nat) - (s.commitment k : Int)

/-- The floor law would hold with record `r` live at slot `k` (R2, R161). -/
def State.FloorsFit (s : State) (k : Slot) (r : PolicyRecord) : Prop := s.floorSum + r.floorTerm ≤ s.available + s.floorOf k

/-- The commitment of slot `k` may change to what record `r` makes it (R161). -/
def State.MayRise (s : State) (k : Slot) (r : PolicyRecord) : Prop :=
  0 < s.rise k r → s.rise k r ≤ s.free ∧ s.alloc.state ≠ .shedding

theorem applyCheck_badArg (h : ¬ r.inRange = true) : s.applyCheck k r = .badArg := if_pos (Bool.eq_false_iff.2 h)

theorem applyCheck_floorConflict (h : r.inRange = true) (hf : ¬ s.FloorsFit k r) : s.applyCheck k r = .floorConflict := by
  unfold State.applyCheck
  rw [if_neg (by rw [h]; decide), if_pos (Nat.lt_of_not_le hf)]

theorem mayRise_iff : s.MayRise k r ↔ ¬ (s.commitment k < max r.floorTerm (Lease.term (s.leaseOf k)) ∧
    (s.free < ((max r.floorTerm (Lease.term (s.leaseOf k)) : Nat) : Int) - s.commitment k ∨ s.alloc.state = .shedding)) := by
  unfold State.MayRise State.rise
  rw [not_and, not_or, Int.not_lt]
  refine imp_congr_left ?_
  omega

theorem applyCheck_budgetConflict (h : r.inRange = true) (hf : s.FloorsFit k r) (hr : ¬ s.MayRise k r) :
    s.applyCheck k r = .budgetConflict := by
  rw [mayRise_iff, not_not] at hr
  unfold State.applyCheck
  rw [if_neg (by rw [h]; decide), if_neg (Nat.not_lt.2 hf)]
  exact if_pos hr

theorem applyCheck_passed (h : r.inRange = true) (hf : s.FloorsFit k r) (hr : s.MayRise k r) : s.applyCheck k r = .ok := by
  rw [mayRise_iff] at hr
  unfold State.applyCheck
  rw [if_neg (by rw [h]; decide), if_neg (Nat.not_lt.2 hf)]
  exact if_neg hr

theorem applyPolicy_refused {x : CmdResult} (h : s.applyCheck k s.cmd.staging = x) (hx : x ≠ .ok) :
    s.applyPolicy k = s.answered x := by
  unfold State.applyPolicy
  dsimp only
  rw [h]
  cases x with
  | ok => exact absurd rfl hx
  | _ => rfl

theorem applyPolicy_same (h : s.applyCheck k s.cmd.staging = .ok) (hr : s.cmd.staging = s.policyOf k) :
    s.applyPolicy k = s.answered .ok := by
  unfold State.applyPolicy
  dsimp only
  rw [h]
  dsimp only
  rw [if_pos hr]; rfl

theorem applyPolicy_changed (h : s.applyCheck k s.cmd.staging = .ok) (hr : s.cmd.staging ≠ s.policyOf k) :
    s.applyPolicy k = (s.applyRecord k s.cmd.staging).answered .ok := by
  unfold State.applyPolicy
  dsimp only
  rw [h]
  dsimp only
  rw [if_neg hr]; rfl

/-- Every field in range, one by one (R142, R161). -/
theorem PolicyRecord.inRange_iff_fields :
    r.inRange = true ↔ r.rank ≤ 7 ∧ r.floor ≤ 4095 ∧ 1 ≤ r.cap ∧ r.cap ≤ 4095 ∧ r.floor ≤ r.cap := by
  rw [PolicyRecord.inRange_iff]
  omega

theorem commandsSlot_applyPolicy : CommandsSlot (.applyPolicy b) b State.applyPolicy := fun _ => rfl

/-- Settles O37: the four outcomes are the branches of the model's check, in their order. -/
theorem applyPolicyIsCheckedFirst : Obligations.ApplyPolicyIsCheckedFirst := by
  unfold Obligations.ApplyPolicyIsCheckedFirst
  intro b k s hd hi hb
  dsimp only
  rw [commandsSlot_applyPolicy.exec_slot hd hi hb, ← PolicyRecord.inRange_iff_fields]
  refine ⟨fun h => ?_, fun h hf => ?_, fun h hf hr => ?_, fun h hf hr hsame => ?_⟩
  · rw [applyPolicy_refused (applyCheck_badArg h) (by decide)]
  · rw [applyPolicy_refused (applyCheck_floorConflict h hf) (by decide)]
  · rw [applyPolicy_refused (applyCheck_budgetConflict h hf hr) (by decide)]
  · rw [applyPolicy_same (applyCheck_passed h hf hr) hsame]

end Sys2Proof.Machine
end

section
/-! PROOFS. A write word acts by its register: CONTROL, the settings, PASS_LIMIT, STATUS, the table window, CMD and its arguments
(R43, R154 to R160, R167, R177, R178). -/

namespace Sys2Proof.Machine

variable {s : State} {a : BitVec 7} {c : Instr} {f : State → State} {write : Bool} {w : Word}

/-! ### A word in its transaction -/

/-- The port once a word at `a` has been taken in its transaction (R154). -/
def State.pastWord (write : Bool) (a : BitVec 7) (s : State) : State :=
  { s with host := { s.host with burst := some ⟨write, nextAddr a⟩ } }

theorem touch_eq_pastWord (h : s.WordFits write a) : s.touch write a = s.pastWord write a := State.touch_of_fits h

theorem nextAddr_of_plain (h : a ≠ 0x19 ∧ a ≠ 0x1A) : nextAddr a = a + 1 := if_neg fun ha => ha.elim h.1 h.2

/-- The row is a write word at `a` that takes `f` once the load is complete. -/
def WritesBy (c : Instr) (a : BitVec 7) (f : State → State) : Prop := ∀ u, exec c u = .next ((u.touch true a).whenLoaded f)

theorem WritesBy.exec_fits (hw : WritesBy c a f) (hd : s.store.startDone = true) (h : s.WordFits true a) :
    exec c s = .next (f (s.pastWord true a)) := by
  rw [hw, touch_eq_pastWord h]
  exact congrArg Host.Outcome.next (if_pos hd)

/-- A write word at the address of its register takes what the register's write takes (R155). -/
theorem WritesBy.exec_loaded (hw : WritesBy c a (State.writeLoaded a w)) (hd : s.store.startDone = true) (h : s.WordFits true a) :
    exec c s = .next ((s.pastWord true a).writeLoaded a w) := hw.exec_fits hd h

theorem writesBy_registerWrite : WritesBy (.registerWrite a w) a (State.writeLoaded a w) := fun _ => rfl

/-! ### CONTROL -/

/-- CONTROL with its four stored fields written, and the pass that a change of BACKFILL, or of PREEMPT to 1, makes due (R157). -/
def State.controlled (bf pre ne ce : Bool) (s : State) : State :=
  { s with
    host := { s.host with intNoticeEn := ne, intCmdEn := ce }
    cmd := { s.cmd with settings := { s.cmd.settings with backfill := bf, preempt := pre } }
    alloc := { s.alloc with
      passDue := s.alloc.passDue || (bf != s.cmd.settings.backfill) || (pre && !s.cmd.settings.preempt) } }

/-- A write of CONTROL ends with the pass that a changed field makes due, after the port reset (R157, log entry 34). -/
theorem writeControl_eq (bf pre ne ce reset : Bool) (s : State) : s.writeControl bf pre ne ce reset =
    State.finish (if reset = true then (s.controlled bf pre ne ce).portReset else s.controlled bf pre ne ce) := by
  unfold State.writeControl State.controlled
  dsimp only
  rw [Bool.or_assoc]
  rfl

/-- Settles O47: each row is a write of CONTROL, which is the fields' update, the port reset where asked, and the end of the
happening. -/
theorem controlWritesItsFields : Obligations.ControlWritesItsFields := by
  unfold Obligations.ControlWritesItsFields
  intro s hd hfits x written portReset
  have hreset : ∀ t : State, t.portReset = portReset t := fun t => by
    unfold State.portReset
    rw [busy_eq]
    rfl
  have hwritten : ∀ bf pre ne ce, (s.pastWord true 0x03).controlled bf pre ne ce = written bf pre ne ce := fun _ _ _ _ => rfl
  have hexec : ∀ {c : Instr} {reset : Bool} (bf pre ne ce : State → Bool),
      WritesBy c 0x03 (fun u => u.writeControl (bf u) (pre u) (ne u) (ce u) reset) →
      let u := s.pastWord true 0x03
      let t := written (bf u) (pre u) (ne u) (ce u)
      exec c s = .next (State.finish (if reset = true then portReset t else t)) := fun bf pre ne ce hw => by
    dsimp only
    rw [hw.exec_fits hd hfits, writeControl_eq, hreset, hwritten]
  refine ⟨fun w => ?_, fun v => ?_, fun v => ?_, fun ne ce => ?_, ?_⟩
  · exact hexec (fun _ => w.getLsbD 0) (fun _ => w.getLsbD 1) (fun _ => w.getLsbD 2) (fun _ => w.getLsbD 3) fun _ => rfl
  · exact hexec (reset := false) (fun _ => v) (·.settings.preempt) (·.host.intNoticeEn) (·.host.intCmdEn) fun _ => rfl
  · exact hexec (reset := false) (·.settings.backfill) (fun _ => v) (·.host.intNoticeEn) (·.host.intCmdEn) fun _ => rfl
  · exact hexec (reset := false) (·.settings.backfill) (·.settings.preempt) (fun _ => ne) (fun _ => ce) fun _ => rfl
  · exact hexec (reset := true) (·.settings.backfill) (·.settings.preempt) (·.host.intNoticeEn) (·.host.intCmdEn) fun _ => rfl

/-! ### The table window -/

theorem bitField_eq (w : Word) (lo n : Nat) : bitField w lo n = w.toNat / 2 ^ lo % 2 ^ n := by
  unfold bitField; rw [Nat.shiftRight_eq_div_pow]

/-- The high byte of a word (section 11.2). -/
theorem bitField_high (w : Word) : bitField w 8 8 = w.toNat / 256 := by
  rw [bitField_eq]
  exact Nat.mod_eq_of_lt (Nat.div_lt_of_lt_mul w.isLt)

theorem selCode_eq (sel : Word) : selCode sel = BitVec.ofNat 8 (sel.toNat / 256) := by
  unfold selCode byteOf; rw [bitField_high]

theorem selCode_toNat (sel : Word) : (selCode sel).toNat = sel.toNat / 256 := by
  rw [selCode_eq, BitVec.toNat_ofNat]
  exact Nat.mod_eq_of_lt (Nat.div_lt_of_lt_mul sel.isLt)

theorem selCode_eq_one_iff {sel : Word} : selCode sel = 1 ↔ sel.toNat / 256 = 1 := by
  rw [← selCode_toNat]
  exact ⟨fun h => by rw [h]; rfl, fun h => BitVec.eq_of_toNat_eq h⟩

/-- The word pointer goes on in the record of the table code that TABLE_SEL holds (R158). -/
theorem HostPort.advanceTable_eq (h : HostPort) : h.advanceTable =
    { h with wordPtr := advance h.wordPtr (recordWords (BitVec.ofNat 8 (h.tableSel.toNat / 256))) } := by
  unfold HostPort.advanceTable; rw [selCode_eq]

/-- A word stored into STAGING (R159). -/
theorem writeTable_of_staging (h : s.host.tableSel.toNat / 256 = 1) : s.writeTable w = { s with
    host := { s.host with wordPtr := advance s.host.wordPtr 3 }
    cmd := { s.cmd with staging := s.cmd.staging.store s.host.wordPtr w } } := by
  refine (if_pos (selCode_eq_one_iff.2 h)).trans ?_
  show { s with host := s.host.advanceTable, cmd := _ } = _
  rw [HostPort.advanceTable_eq, h]
  rfl

/-- A word for any other table is discarded with BAD_WRITE, and the word pointer moves all the same (R159). -/
theorem writeTable_of_other (h : s.host.tableSel.toNat / 256 ≠ 1) : s.writeTable w = { s with
    host := { s.host with
      badWrite := true, wordPtr := advance s.host.wordPtr (recordWords (BitVec.ofNat 8 (s.host.tableSel.toNat / 256))) } } := by
  refine (if_neg (mt selCode_eq_one_iff.1 h)).trans ?_
  show { s with host := { s.host.advanceTable with badWrite := true } } = _
  rw [HostPort.advanceTable_eq]

/-! ### The words that nothing takes -/

/-- A write to an address that takes none is discarded (R178). -/
theorem writeLoaded_discarded (h : a.toNat ≤ 0x01 ∨ (0x04 ≤ a.toNat ∧ a.toNat ≤ 0x0A) ∨ a = 0x0E ∨ a = 0x1A ∨ 0x1B ≤ a.toNat) :
    s.writeLoaded a w = s := by
  have hnat : a.toNat ≤ 0x01 ∨ (0x04 ≤ a.toNat ∧ a.toNat ≤ 0x0A) ∨ a.toNat = 0x0E ∨ 0x1A ≤ a.toNat := by
    rcases h with h | h | rfl | rfl | h
    · exact .inl h
    · exact .inr (.inl h)
    · exact .inr (.inr (.inl rfl))
    · exact .inr (.inr (.inr (Nat.le_refl _)))
    · exact .inr (.inr (.inr (Nat.le_of_succ_le h)))
  have hsetting : settingAt a = none := by
    unfold settingAt
    split
    case h_9 => rfl
    all_goals omega
  unfold State.writeLoaded
  split
  case h_9 => rw [hsetting]
  all_goals omega

/-- Settles O49: each write word is the model's write of its register, the port standing past the word. -/
theorem aWriteWordActsByItsRegister : Obligations.AWriteWordActsByItsRegister := by
  unfold Obligations.AWriteWordActsByItsRegister
  intro addr w s hd h code
  have hexec : ∀ {c : Instr} {a : BitVec 7}, WritesBy c a (State.writeLoaded a w) → s.WordFits true a →
      exec c s = .next ((s.pastWord true a).writeLoaded a w) := fun hw => hw.exec_loaded hd
  refine ⟨fun hfits => hexec (fun _ => rfl) hfits, fun hfits => hexec (fun _ => rfl) hfits, fun hfits hcode hptr => ?_,
    fun hfits hcode => ?_, fun hfits => ⟨fun ha => ?_, fun ha => ?_, fun ha => ?_, fun ha => ?_, fun ha => ?_⟩⟩
  · rw [hexec (fun _ => rfl) hfits]
    refine congrArg Host.Outcome.next ((writeTable_of_staging (s := s.pastWord true 0x19) hcode).trans ?_)
    have hadvance : advance h.wordPtr 3 = (h.wordPtr + 1) % 3 := by unfold advance; split <;> omega
    have hstore : s.cmd.staging.store h.wordPtr w = match h.wordPtr with
        | 0 => { s.cmd.staging with
            enabled := w.getLsbD 0, cls := if w.getLsbD 1 = true then .essential else .deferrable
            startMode := if w.getLsbD 2 = true then .auto else .host, rank := w.toNat / 16 % 16 }
        | 1 => { s.cmd.staging with floor := w.toNat }
        | _ => { s.cmd.staging with cap := w.toNat } := by
      unfold PolicyRecord.store
      rw [bitField_eq]
      rfl
    exact (congrArg₂ (fun p r => ({ s with
      host := { h with burst := some ⟨true, 0x19⟩, wordPtr := p }, cmd := { s.cmd with staging := r } } : State)) hadvance hstore)
  · rw [hexec (fun _ => rfl) hfits]
    exact congrArg Host.Outcome.next (writeTable_of_other (s := s.pastWord true 0x19) hcode)
  · subst ha; exact hexec writesBy_registerWrite hfits
  · subst ha; exact hexec writesBy_registerWrite hfits
  · subst ha; exact hexec writesBy_registerWrite hfits
  · rw [hexec writesBy_registerWrite hfits, writeLoaded_discarded (by tauto)]
    unfold State.pastWord
    rw [nextAddr_of_plain]
    constructor <;> rintro rfl <;> revert ha <;> decide
  · subst ha
    rw [hexec writesBy_registerWrite hfits, writeLoaded_discarded (by tauto)]
    rfl

end Sys2Proof.Machine
end

section
/-! PROOFS. The setting registers: a word is taken whole or ignored, and reads back; PASS_LIMIT (R43, R156, R177). -/

namespace Sys2Proof.Machine

variable {s : State} {reg : SettingReg} {w m : Word} {x y : Settings}

/-! ### Reserved bits -/

/-- The bits of a word that a mask of `n` bits from `lo` on picks are all 0 exactly where its field is. -/
theorem and_mask_eq_zero_iff {lo n : Nat} (hm : m.toNat = (2 ^ n - 1) * 2 ^ lo) : w &&& m = 0 ↔ bitField w lo n = 0 := by
  have hand : (w &&& m).toNat = bitField w lo n * 2 ^ lo := by
    rw [BitVec.toNat_and, hm, ← Nat.shiftLeft_eq]
    unfold bitField
    rw [← Nat.and_two_pow_sub_one_eq_mod, ← Nat.shiftLeft_eq]
    refine Nat.eq_of_testBit_eq fun i => ?_
    simp only [Nat.testBit_and, Nat.testBit_shiftLeft, Nat.testBit_shiftRight]
    by_cases hi : lo ≤ i
    · simp [hi]
    · simp [hi]
  rw [← BitVec.toNat_inj, hand]
  have hpos := Nat.two_pow_pos lo
  simp

/-- No reserved bit of a setting word is 1 (R177, section 11.2). -/
theorem reserved_eq_zero_iff : w &&& ~~~ settingMask reg = 0 ↔ match reg with
    | .settleTime | .pollPeriod | .sagHoldoff => w.toNat ≤ 255
    | .linkCtrl => w.toNat % 256 ≤ 3
    | .rampCtrl | .overdrawMargin | .sagLevel => w.toNat ≤ 1023
    | .monCtrl => w.toNat % 256 ≤ 3 ∧ w.toNat / 256 ≤ 15 := by
  have hw := w.isLt
  have hbyte : w &&& 0xFF00 = 0 ↔ w.toNat ≤ 255 := by
    rw [and_mask_eq_zero_iff (lo := 8) (n := 8) rfl, bitField_eq]; omega
  have hten : w &&& 0xFC00 = 0 ↔ w.toNat ≤ 1023 := by
    rw [and_mask_eq_zero_iff (lo := 10) (n := 6) rfl, bitField_eq]; omega
  have hlow : w &&& 0x00FC = 0 ↔ w.toNat % 256 ≤ 3 := by
    rw [and_mask_eq_zero_iff (lo := 2) (n := 6) rfl, bitField_eq]; omega
  have hhigh : w &&& 0xF000 = 0 ↔ w.toNat / 256 ≤ 15 := by
    rw [and_mask_eq_zero_iff (lo := 12) (n := 4) rfl, bitField_eq]; omega
  cases reg with
  | settleTime | pollPeriod | sagHoldoff => exact hbyte
  | linkCtrl => exact hlow
  | rampCtrl | overdrawMargin | sagLevel => exact hten
  | monCtrl =>
    have hsplit : w &&& 0xF0FC = (w &&& 0x00FC) ||| (w &&& 0xF000) := by
      rw [← BitVec.and_or_distrib_left]; rfl
    show w &&& 0xF0FC = 0 ↔ _
    rw [hsplit]
    exact BitVec.or_eq_zero_iff.trans (and_congr hlow hhigh)

/-! ### A setting taken or ignored -/

/-- Two checks in turn are one check for both. -/
theorem ite_none_ite_eq {α : Type} {p q r : Prop} [Decidable p] [Decidable q] [Decidable r] {a b : α} (h : r ↔ p ∧ q)
    (hab : r → a = b) : (if ¬ p then none else if q then some a else none) = if r then some b else none := by
  by_cases hr : r
  · obtain ⟨hp, hq⟩ := h.1 hr
    rw [if_neg (not_not.2 hp), if_pos hq, if_pos hr, hab hr]
  · rw [if_neg hr]
    by_cases hp : p
    · rw [if_neg (not_not.2 hp), if_neg fun hq => hr (h.2 ⟨hp, hq⟩)]
    · rw [if_pos hp]

theorem scanPeriodOf_eq {c : Nat} (h : c ≤ 3) : scanPeriodOf c = 2 * 2 ^ c := by
  interval_cases c <;> rfl

/-- The fields of each setting register and their ranges (R156, section 11.2). -/
theorem settingApply_eq : settingApply reg w x =
    let n := w.toNat
    match reg with
    | .settleTime => if 1 ≤ n ∧ n ≤ 255 then some { x with settleTime := n } else none
    | .pollPeriod => if 5 ≤ n ∧ n ≤ 255 then some { x with pollPeriod := n } else none
    | .linkCtrl => if n % 256 ≤ 3 ∧ 5 ≤ n / 256 then some { x with lineRetries := n % 256, linkGrace := n / 256 } else none
    | .rampCtrl => if 5 ≤ n % 256 ∧ n / 256 ≤ 3 then some { x with rampTimeout := n % 256, rampRetries := n / 256 } else none
    | .monCtrl => if n % 256 ≤ 3 ∧ 1 ≤ n / 256 ∧ n / 256 ≤ 15 then
        some { x with scanPeriod := 2 * 2 ^ (n % 256), overdrawCount := n / 256 } else none
    | .overdrawMargin => if n ≤ 1023 then some { x with overdrawMargin := n } else none
    | .sagLevel => if n ≤ 1000 then some { x with sagLevel := n } else none
    | .sagHoldoff => if 10 ≤ n ∧ n ≤ 255 then some { x with sagHoldoff := n } else none := by
  have hw := w.isLt
  have hres := reserved_eq_zero_iff (reg := reg) (w := w)
  have hlow : w.toNat ≤ 255 → bitField w 0 8 = w.toNat := fun h => by rw [bitField_eq]; omega
  have hten : w.toNat ≤ 1023 → bitField w 0 10 = w.toNat := fun h => by rw [bitField_eq]; omega
  have hbyte : bitField w 0 8 = w.toNat % 256 := by rw [bitField_eq]; omega
  have htwo : w.toNat % 256 ≤ 3 → bitField w 0 2 = w.toNat % 256 := fun h => by rw [bitField_eq]; omega
  have hhigh : bitField w 8 8 = w.toNat / 256 := bitField_high w
  unfold settingApply
  cases reg with
  | settleTime => refine ite_none_ite_eq ?_ fun h => by rw [hlow h.2]
                  rw [hres, bitField_eq]; omega
  | pollPeriod => refine ite_none_ite_eq ?_ fun h => by rw [hlow h.2]
                  rw [hres, bitField_eq]; omega
  | sagHoldoff => refine ite_none_ite_eq ?_ fun h => by rw [hlow h.2]
                  rw [hres, bitField_eq]; omega
  | linkCtrl => refine ite_none_ite_eq ?_ fun h => by rw [htwo h.1, hhigh]
                rw [hres, hhigh]
  | rampCtrl => refine ite_none_ite_eq ?_ fun h => ?_
                · rw [hres, hbyte]; omega
                · have hpage : w.toNat / 2 ^ 8 % 2 ^ 2 = w.toNat / 256 := by omega
                  rw [hbyte, bitField_eq, hpage]
  | monCtrl => refine ite_none_ite_eq ?_ fun h => ?_
               · rw [hres, bitField_eq]; omega
               · have hrun : w.toNat / 2 ^ 8 % 2 ^ 4 = w.toNat / 256 := by omega
                 rw [htwo h.1, scanPeriodOf_eq h.1, bitField_eq, hrun]
  | overdrawMargin =>
    refine Eq.trans ?_ (ite_none_ite_eq (p := w &&& ~~~ settingMask .overdrawMargin = 0) (q := True)
      (a := { x with overdrawMargin := bitField w 0 10 }) ?_ fun h => by rw [hten h])
    · rw [if_pos trivial]
    · rw [hres, and_true]
  | sagLevel => refine ite_none_ite_eq ?_ fun h => by rw [hten (by omega)]
                rw [hres, bitField_eq]; omega

theorem wordOf_toNat (w : Word) : wordOf w.toNat = w := BitVec.ofNat_toNat 16 w

theorem scanPeriodCode_eq {c : Nat} (h : c ≤ 3) : scanPeriodCode (2 * 2 ^ c) = c := by
  interval_cases c <;> rfl

/-- A word that its register takes is what the register then reads (R156). -/
theorem settingWord_of_taken (h : settingApply reg w x = some y) : settingWord y reg = w := by
  rw [settingApply_eq] at h
  have hword : ∀ v, v = w.toNat → wordOf v = w := fun v hv => by rw [hv, wordOf_toNat]
  cases reg <;> dsimp only at h <;> obtain ⟨hr, hy⟩ := Option.ite_none_right_eq_some.1 h <;>
    obtain rfl := Option.some.inj hy <;> refine hword _ ?_ <;> dsimp only [field]
  case linkCtrl => omega
  case rampCtrl => omega
  case monCtrl => rw [scanPeriodCode_eq hr.1]; omega

theorem register_setting : s.register (settingAddr reg) = settingWord s.settings reg := by cases reg <;> rfl

theorem writeLoaded_setting : s.writeLoaded (settingAddr reg) w = s.writeSetting reg w := by cases reg <;> rfl

theorem nextAddr_setting : nextAddr (settingAddr reg) = settingAddr reg + 1 := by cases reg <;> rfl

theorem writeSetting_of_taken (h : settingApply reg w s.settings = some y) :
    s.writeSetting reg w = { s with cmd := { s.cmd with settings := y } } := by
  unfold State.writeSetting; rw [h]; rfl

theorem writeSetting_of_ignored (h : settingApply reg w s.settings = none) :
    s.writeSetting reg w = { s with host := { s.host with badWrite := true } } := by
  unfold State.writeSetting; rw [h]; rfl

/-- Settles O48: the ranges of each register are the model's, a taken word reads back, and PASS_LIMIT is taken up to 15. -/
theorem aSettingIsTakenWholeOrIgnored : Obligations.ASettingIsTakenWholeOrIgnored := by
  unfold Obligations.ASettingIsTakenWholeOrIgnored
  intro reg w s hd n x taken after
  have htaken : settingApply reg w s.settings = taken := settingApply_eq.trans (by cases reg <;> rfl)
  have hexec : s.WordFits true (settingAddr reg) →
      exec (.settingWrite reg w) s = .next ((s.pastWord true (settingAddr reg)).writeSetting reg w) := fun hfits => by
    rw [← writeLoaded_setting]
    exact WritesBy.exec_loaded (fun _ => rfl) hd hfits
  have hpass : s.WordFits true 0x15 → exec (.passLimitWrite w) s = .next ((s.pastWord true 0x15).writePassLimit w) :=
    WritesBy.exec_fits (fun _ => rfl) hd
  have hpast : s.pastWord true (settingAddr reg) = { s with host := after (settingAddr reg) } := by
    unfold State.pastWord; rw [nextAddr_setting]
  refine ⟨fun y hy hfits => ?_, fun hnone hfits => ?_, fun hn hfits => ?_, fun hn hfits => ?_⟩
  · refine ⟨_, hexec hfits, ?_, ?_⟩
    · rw [writeSetting_of_taken (s := s.pastWord true (settingAddr reg)) (htaken.trans hy), hpast]
    · rw [writeSetting_of_taken (s := s.pastWord true (settingAddr reg)) (htaken.trans hy), register_setting]
      exact settingWord_of_taken (htaken.trans hy)
  · rw [hexec hfits, writeSetting_of_ignored (s := s.pastWord true (settingAddr reg)) (htaken.trans hnone), hpast]
  · rw [hpass hfits]
    exact congrArg Host.Outcome.next (if_pos hn)
  · rw [hpass hfits]
    exact congrArg Host.Outcome.next (if_neg (Nat.not_lt.2 hn))

end Sys2Proof.Machine
end

section
/-! PROOFS. ADMIT, CLEAR_FAULT and RESCAN: the admit flag with the BRINGUP entry, and a slot that probes again (R79, R93, R163, R166). -/

namespace Sys2Proof.Machine

variable {s : State} {k : Slot} {b : Byte} {d : Descriptor} {r : Reason}

theorem commandsSlot_admitSlot : CommandsSlot (.admitSlot b) b State.admitSlot := fun _ => rfl

theorem commandsSlot_clearFault : CommandsSlot (.clearFault b) b State.clearFault := fun _ => rfl

theorem commandsSlot_rescan : CommandsSlot (.rescan b) b State.rescan := fun _ => rfl

/-! ### ADMIT -/

/-- The admit flag of slot `k` is set (R163). -/
def State.admitted (k : Slot) (s : State) : State := s.modSess k (fun x => { x with admitFlag := true })

theorem admitSlot_of_waiting (hs : (s.sessOf k).state = .standby) (ha : (s.sessOf k).admitFlag = false) :
    s.admitSlot k = ((s.admitted k).bringup k).finish.answered .ok :=
  if_pos ⟨hs, ha⟩

theorem sessOf_admitted : (s.admitted k).sessOf k = { s.sessOf k with admitFlag := true } := by
  unfold State.admitted
  rw [State.sessOf_modSess, if_pos rfl]

theorem onlyAt_admitted : State.OnlyAt k s (s.admitted k) := onlyAt_modSess

/-- The checks that a BRINGUP can fail where the descriptor is a good list: 5 for the live cap, then 6 (R27, R32). -/
theorem admission_bringup_cap (hl : s.leaseOf k = none) (ha : (s.sessOf k).admitFlag = true) (hdesc : (s.sessOf k).desc = some d)
    (hok : d.listOk = true) : s.admission k d.preferredTier 1 =
      if (s.policyOf k).cap < d.drawOf 1 then some .overCap else if s.neverFits k 1 = true then some .neverFits else none := by
  by_cases hcap : (s.policyOf k).cap < d.drawOf 1
  · obtain ⟨hone, htiers⟩ := Descriptor.preferredTier_range hok
    have hcount : s.tiersOf k = d.tiers := by unfold State.tiersOf; rw [hdesc]
    have hdraw : s.drawOf k 1 = d.drawOf 1 := by unfold State.drawOf; rw [hdesc]
    have hraise : s.raising k = false := by unfold State.raising; rw [hl]
    have htier : s.claimTier k = 0 := by unfold State.claimTier; rw [hl]
    have hover : s.overCap k 1 = true := decide_eq_true (by rw [hdraw]; exact hcap)
    unfold State.admission
    rw [hcount, ha, hraise, htier, hover, if_neg (by omega), if_neg (by decide), if_neg (by decide), if_neg (by omega), if_pos rfl,
      if_pos hcap]
  · rw [admission_bringup hl ha hdesc hok (Nat.le_of_not_lt hcap), if_neg hcap]

/-- A claim leaves the monitor alone, whether it is refused or taken. -/
theorem mon_takeClaim {o : EntryOrigin} {w n : Nat} (hhost : o ≠ .host) (hrestore : o ≠ .restore) :
    (s.takeClaim k o w n).mon = s.mon := by
  cases h : s.admission k w n with
  | none =>
    obtain ⟨_, _, _, _, _, _, hmon⟩ := takeClaim_passed_parts hrestore h
    exact hmon
  | some r =>
    rw [takeClaim_refused hrestore h]
    obtain ⟨_, _, _, _, _, _, hmon, _⟩ := refuseClaim_parts (s := s) (k := k) (r := r) (w := w) hhost
    exact hmon

/-- Settles O41: the flag is set, and the BRINGUP is a claim of the preferred tier that joins or fails check 5 or 6. -/
theorem admitBringsTheModuleUp : Obligations.AdmitBringsTheModuleUp := by
  unfold Obligations.AdmitBringsTheModuleUp
  intro b k s hd hi hb
  rw [commandsSlot_admitSlot.exec_slot hd hi hb]
  refine ⟨fun h => congrArg Host.Outcome.next (if_neg h), fun d hs ha hdesc hok hl he => ?_⟩
  have honly := onlyAt_admitted (s := s) (k := k)
  have hsess := sessOf_admitted (s := s) (k := k)
  have hdesc' : ((s.admitted k).sessOf k).desc = some d := by rw [hsess]; exact hdesc
  have hdraw : (s.admitted k).drawOf k 1 = d.drawOf 1 := by unfold State.drawOf; rw [hdesc']
  have hadm := admission_bringup_cap (s := s.admitted k) hl (by rw [hsess]) hdesc' hok
  have hfits : (s.admitted k).neverFits k 1 = true ↔
      s.available + s.floorOf k < max (s.floorOf k) (d.drawOf 1) + s.floorSum := by rw [neverFits_iff, hdraw]; exact Iff.rfl
  have hnew : (s.admitted k).newEntry k .bringup d.preferredTier 1 =
      ⟨k, (s.sessOf k).tag, .bringup, d.preferredTier, 1, (s.policyOf k).cls, (s.policyOf k).rank, 0⟩ := by
    unfold State.newEntry; rw [hsess]; rfl
  obtain ⟨honlyc, hsessc, hpowerc, hleasesc, hcommittedc, _, _⟩ := takeClaim_parts (s := s.admitted k) (k := k)
    (o := .bringup) (w := d.preferredTier) (n := 1) (by decide) (by decide)
  have hall := honly.trans honlyc
  refine ⟨(s.admitted k).takeClaim k .bringup d.preferredTier 1, ?_, hall.host, hall.others, hall.raised,
    (congrArg (PerSlot.get · k) hsessc).trans hsess, hleasesc, hpowerc, mon_takeClaim (by decide) (by decide), hcommittedc,
    fun hcap => ?_, fun hcap hlt => ?_, fun hcap hle => ?_⟩
  · rw [admitSlot_of_waiting hs ha, bringup_of_desc hdesc']
  · exact takeClaim_denied (by decide) (by decide) he (hadm.trans (if_pos hcap))
  · rw [show ((s.admitted k).policyOf k).cap = (s.policyOf k).cap from rfl, if_neg (Nat.not_lt.2 hcap), if_pos (hfits.2 hlt)] at hadm
    exact takeClaim_denied (by decide) (by decide) he hadm
  · rw [show ((s.admitted k).policyOf k).cap = (s.policyOf k).cap from rfl, if_neg (Nat.not_lt.2 hcap),
      if_neg fun h => absurd (hfits.1 h) (Nat.not_lt.2 hle)] at hadm
    obtain ⟨pos, hjoined, hposted⟩ := takeClaim_joins (s := s.admitted k) (o := .bringup) he hadm
    rw [hnew] at hjoined
    exact ⟨pos, hjoined, hposted⟩

/-! ### CLEAR_FAULT and RESCAN -/

theorem Line.outSession_calm (x : Line) : x.calm.outSession = x.outSession := by
  unfold Line.calm; split <;> rfl

/-- A slot that is not open and whose session channel is empty queues nothing there. -/
theorem outSession_enter_unopened (n : Nat) (x : Line) (h : x.outSession = none) :
    (Line.enter (s.unopened k) n x).outSession = none := by
  unfold State.unopened
  split
  · exact (Line.outSession_calm x).trans h
  · rfl

theorem poll_enter_unopened (n : Nat) (x : Line) (h : (s.policyOf k).enabled = true) :
    (Line.enter (s.unopened k) n x).poll = some n := by
  rw [unopened_of_enabled h]; rfl

/-- The slot leaves FAULTED: strike, descriptor and last reason are gone, and the fault's SEVER with them (R93). -/
def State.reopened (k : Slot) (s : State) : State :=
  (((s.modSess k (fun x => { x with desc := none, lastEnd := .none })).modMon k (MonSlot.sessionEnded false)).modLine k
    (Line.remove .session)).enter k (s.unopened k)

/-- The slot leaves REJECTED: the refused descriptor is gone, and its REFUSE with it (R79). -/
def State.rescanned (k : Slot) (s : State) : State :=
  ((s.modSess k (fun x => { x with desc := none })).modLine k (Line.remove .session)).enter k .listening

theorem clearFault_of_faulted (h : (s.sessOf k).state = .faulted) : s.clearFault k = (s.reopened k).answered .ok := if_pos h

theorem rescan_of_rejected (h : (s.sessOf k).state = .rejected) : s.rescan k = (s.rescanned k).answered .ok := if_pos h

/-- Settles O44: either command is the removal of what the state kept, and the entry into the state that probes again. -/
theorem clearFaultAndRescanReopenTheSlot : Obligations.ClearFaultAndRescanReopenTheSlot := by
  unfold Obligations.ClearFaultAndRescanReopenTheSlot
  intro b k s hd hi hb
  rw [commandsSlot_clearFault.exec_slot hd hi hb, commandsSlot_rescan.exec_slot hd hi hb]
  refine ⟨fun h => congrArg Host.Outcome.next (if_neg h), fun h => congrArg Host.Outcome.next (if_neg h), fun h => ?_, fun h => ?_⟩
  · have honly : State.OnlyAt k s (s.reopened k) := ((onlyAt_modSess.trans onlyAt_modMon).trans onlyAt_modLine).trans onlyAt_enter
    refine ⟨_, congrArg Host.Outcome.next (clearFault_of_faulted h), honly.host, honly.others, rfl, rfl, rfl, rfl, rfl, ?_, ?_, ?_,
      ?_, fun hen => ?_⟩
    · unfold State.reopened
      rw [sessOf_enter, State.sessOf_modLine, State.sessOf_modMon, State.sessOf_modSess, if_pos rfl]; rfl
    · unfold State.reopened
      rw [rampOf_enter, auxOn_unopened]; rfl
    · unfold State.reopened
      rw [monOf_enter, State.monOf_modLine, State.monOf_modMon, if_pos rfl]; rfl
    · unfold State.reopened
      rw [lineOf_enter, State.lineOf_modLine, if_pos rfl]
      exact outSession_enter_unopened _ _ rfl
    · unfold State.reopened
      rw [lineOf_enter, poll_enter_unopened _ _ hen]; rfl
  · have honly : State.OnlyAt k s (s.rescanned k) := (onlyAt_modSess.trans onlyAt_modLine).trans onlyAt_enter
    refine ⟨_, congrArg Host.Outcome.next (rescan_of_rejected h), honly.host, honly.others, rfl, rfl, rfl, rfl, rfl, rfl, ?_, ?_,
      ?_, ?_⟩ <;> unfold State.rescanned
    · rw [sessOf_enter, State.sessOf_modLine, State.sessOf_modSess, if_pos rfl]
    · rw [rampOf_enter]; rfl
    · rw [lineOf_enter, State.lineOf_modLine, if_pos rfl]
      exact Line.outSession_calm _
    · rw [lineOf_enter]; rfl

end Sys2Proof.Machine
end

section
/-! PROOFS. SET_TIER: a HOST claim above the granted tier, a recall below it (R34, R46, R47, R165). -/

namespace Sys2Proof.Machine

variable {s : State} {k : Slot} {b : Byte} {w : Word} {l : Lease} {e : Entry} {r : Reason} {n m : Nat}

theorem commandsSlot_setTier : CommandsSlot (.setTier b w) b (fun k => State.setTier k w.toNat) := fun _ => rfl

/-! ### A HOST claim -/

/-- A HOST claim refused where the slot has no entry sends nothing to the module (R34). -/
theorem refuseClaim_host_of_none (he : s.entryOf k = none) : s.refuseClaim k .host r n = s.post .denied (some k) r n := by
  unfold State.refuseClaim
  rw [he]
  simp only [Option.isSome_none, Bool.and_false, Bool.false_eq_true, and_self, if_false, if_true]

/-- Where the slot has an entry a HOST claim is refused as a CLAIM is (R29, R34). -/
theorem refuseClaim_host_of_entry (he : (s.entryOf k).isSome = true) : s.refuseClaim k .host r n = s.refuseClaim k .claim r n := by
  unfold State.refuseClaim
  rw [he]
  simp only [reduceCtorEq, Bool.true_eq_false, and_false, if_false]

/-- What a HOST claim leaves alone, whether it is refused or taken. -/
theorem takeClaim_host_parts : State.OnlyAt k s (s.takeClaim k .host n m) ∧ (s.takeClaim k .host n m).sess = s.sess ∧
    (s.takeClaim k .host n m).power = s.power ∧ (s.takeClaim k .host n m).mon = s.mon ∧
    (s.takeClaim k .host n m).alloc.leases = s.alloc.leases ∧ (s.takeClaim k .host n m).alloc.committed = s.alloc.committed := by
  cases h : s.admission k n m with
  | none =>
    obtain ⟨honly, hsess, _, hleases, hcommitted, hpower, hmon⟩ := takeClaim_passed_parts (o := .host) (by decide) h
    exact ⟨honly, hsess, hpower, hmon, hleases, hcommitted⟩
  | some r =>
    rw [takeClaim_refused (by decide) h]
    by_cases he : s.entryOf k = none
    · rw [refuseClaim_host_of_none he]
      exact ⟨onlyAt_post, rfl, rfl, rfl, rfl, rfl⟩
    · rw [refuseClaim_host_of_entry (Option.isSome_iff_ne_none.2 he)]
      obtain ⟨honly, _, hsess, hleases, hcommitted, hpower, hmon, _⟩ :=
        refuseClaim_parts (s := s) (k := k) (o := .claim) (r := r) (w := n) (by decide)
      exact ⟨honly, hsess, hpower, hmon, hleases, hcommitted⟩

/-- The entry of a claim that replaces one has the new origin and tiers (R29). -/
theorem entryOf_takeClaim_replaced {o : EntryOrigin} (ho : o ≠ .restore) (he : s.entryOf k = some e)
    (h : s.admission k n m = none) :
    (s.takeClaim k o n m).entryOf k = some { e with origin := o, wanted := n, least := m } := by
  rw [takeClaim_replaced ho he h]
  obtain ⟨_, _, _, _, _, _, _, hqueue⟩ := afterReplace_parts (k := k) (old := e)
    (s := ((s.retier k o n m).wantPass true).post .queued (some k) o.reason ((s.retier k o n m).positionOf k))
    { e with origin := o, wanted := n, least := m }
  rw [entryOf_eq_of_queue hqueue]
  show (s.retier k o n m).entryOf k = _
  rw [entryOf_retier, he]
  exact congrArg some (if_pos rfl)

/-! ### The three cases of the tier -/

theorem setTier_of_on (hs : (s.sessOf k).state = .on) (hn : n ≤ s.tiersOf k) :
    s.setTier k n = (s.moveTier k n).finish.answered .ok := by
  unfold State.setTier
  rw [if_neg (not_not.2 hs), if_neg (Nat.not_lt.2 hn)]; rfl

theorem moveTier_of_above (hl : s.leaseOf k = some l) (h : l.tier < n) : s.moveTier k n = s.takeClaim k .host n n :=
  if_pos (by rw [grantedTier_of_lease hl]; exact h)

theorem moveTier_of_below (hl : s.leaseOf k = some l) (h : n < l.tier) : s.moveTier k n = s.recall k n .host := by
  unfold State.moveTier
  rw [grantedTier_of_lease hl, if_neg (Nat.lt_asymm h), if_pos h]

theorem moveTier_of_equal (hl : s.leaseOf k = some l) (h : n = l.tier) : s.moveTier k n = s := by
  unfold State.moveTier
  rw [grantedTier_of_lease hl, h, if_neg (Nat.lt_irrefl _), if_neg (Nat.lt_irrefl _)]

/-- Settles O43: at the granted tier nothing moves, below it the recall stands, above it the HOST claim is refused, joins or
replaces. -/
theorem setTierClaimsOrRecalls : Obligations.SetTierClaimsOrRecalls := by
  unfold Obligations.SetTierClaimsOrRecalls
  intro b w k s hd hi hb
  rw [commandsSlot_setTier.exec_slot hd hi hb]
  refine ⟨fun h => congrArg Host.Outcome.next (if_pos h), fun hs h => congrArg Host.Outcome.next ?_, fun l hs hn hl => ?_⟩
  · unfold State.setTier
    rw [if_neg (not_not.2 hs), if_pos h]; rfl
  rw [setTier_of_on hs hn]
  refine ⟨fun h => by rw [moveTier_of_equal hl h], s.moveTier k w.toNat, rfl, ?_⟩
  rcases Nat.lt_trichotomy w.toNat l.tier with h | h | h
  · obtain ⟨honly, hsess, hpower, hmon, hentry⟩ := recall_on_frame (n := w.toNat) (o := .host) hs
    rw [moveTier_of_below hl h]
    exact ⟨honly.host, honly.others, honly.raised, hsess, hpower, hmon, fun _ => ⟨recall_stands hs hl h, hentry⟩,
      fun h' => absurd h' (Nat.lt_asymm h)⟩
  · rw [moveTier_of_equal hl h]
    have honly := State.OnlyAt.refl s k
    exact ⟨honly.host, honly.others, rfl, rfl, rfl, rfl, fun h' => absurd h (Nat.ne_of_lt h'), fun h' => absurd h (Nat.ne_of_gt h')⟩
  · obtain ⟨honly, hsess, hpower, hmon, hleases, hcommitted⟩ := takeClaim_host_parts (s := s) (k := k) (n := w.toNat) (m := w.toNat)
    rw [moveTier_of_above hl h]
    refine ⟨honly.host, honly.others, honly.raised, hsess, hpower, hmon, fun h' => absurd h' (Nat.lt_asymm h), fun _ =>
      ⟨hleases, hcommitted, fun r hr he => ?_, fun r hr he => ?_, fun hno => ?_⟩⟩
    · rw [takeClaim_refused (by decide) (claimFails_iff.1 hr), refuseClaim_host_of_none he]
      exact ⟨rfl, rfl, rfl⟩
    · rw [takeClaim_refused (by decide) (claimFails_iff.1 hr), refuseClaim_host_of_entry he]
      obtain ⟨_, hentry, _, _, _, _, _, hline⟩ :=
        refuseClaim_parts (s := s) (k := k) (o := .claim) (r := r) (w := w.toNat) (by decide)
      refine ⟨hentry, ?_⟩
      rw [show State.lineOf _ k = _ from congrArg (PerSlot.get · k) hline, PerSlot.get_set_self]
      exact Line.queueClaim_after (m := .deny r) (fun _ _ h => nomatch h) _
    · have hadm : s.admission k w.toNat w.toNat = none :=
        Option.eq_none_iff_forall_ne_some.2 fun r hr => hno r (claimFails_iff.2 hr)
      obtain ⟨_, _, hline, _⟩ := takeClaim_passed_parts (o := .host) (by decide) hadm
      exact ⟨hline, fun he => takeClaim_joins he hadm, fun e he => entryOf_takeClaim_replaced (by decide) he hadm⟩

end Sys2Proof.Machine
end

section
/-! PROOFS. The leavings of entries: what never brings an entry into the Demand Queue nor begins a reclaim; and EVICT (R35, R36, R46, R49, R164). -/

namespace Sys2Proof.Machine

variable {s t u : State} {j k : Slot} {b : Byte} {w : Word} {l : Lease} {e : Entry} {r : Reason} {n : Nat} {o : RecallOrigin}

/-! ### Entries only leave -/

/-- From `s` to `t` entries only leave the Demand Queue, each slot's with all of its own, and no reclaim is begun. -/
structure State.Thinned (s t : State) : Prop where
  queue : ∃ p : Slot → Bool, t.alloc.queue = s.alloc.queue.filter (fun x => p x.slot)
  reclaim : s.alloc.reclaim = none → s.ReclaimSame t

namespace State.Thinned

theorem of_same (hq : t.alloc.queue = s.alloc.queue) (hr : t.alloc.reclaim = s.alloc.reclaim) (he : t.alloc.earmark = s.alloc.earmark) :
    s.Thinned t :=
  ⟨⟨fun _ => true, by rw [hq]; exact (List.filter_true _).symm⟩, fun _ => ⟨hr, he⟩⟩

theorem refl (s : State) : s.Thinned s := of_same rfl rfl rfl

theorem trans (h : s.Thinned t) (g : t.Thinned u) : s.Thinned u := by
  obtain ⟨⟨p, hp⟩, hr⟩ := h
  obtain ⟨⟨q, hq⟩, gr⟩ := g
  refine ⟨⟨fun i => q i && p i, by rw [hq, hp, List.filter_filter]⟩, fun hn => ?_⟩
  obtain ⟨h1, h2⟩ := hr hn
  obtain ⟨g1, g2⟩ := gr (h1.trans hn)
  exact ⟨g1.trans h1, g2.trans h2⟩

/-- An entry that has not left stands as it stood. -/
theorem entryOf (h : s.Thinned t) (j : Slot) : t.entryOf j = none ∨ t.entryOf j = s.entryOf j := by
  obtain ⟨⟨p, hp⟩, _⟩ := h
  unfold State.entryOf
  rw [hp, List.find?_filter]
  cases hj : p j with
  | false =>
    refine .inl (List.find?_eq_none.2 fun x _ hx => ?_)
    obtain ⟨hpx, hx⟩ : p x.slot = true ∧ (x.slot == j) = true := of_decide_eq_true hx
    rw [eq_of_beq hx, hj] at hpx; cases hpx
  | true =>
    refine .inr (congrArg (fun f => List.find? f _) (funext fun x => ?_))
    by_cases hx : x.slot = j
    · simp [hx, hj]
    · simp [hx]

theorem entryOf_none (h : s.Thinned t) (he : s.entryOf j = none) : t.entryOf j = none :=
  (h.entryOf j).elim id fun h => h.trans he

theorem of_entryOf (h : s.Thinned t) (he : t.entryOf j = some e) : s.entryOf j = some e := by
  rcases h.entryOf j with h | h
  · rw [h] at he; cases he
  · exact h.symm.trans he

end State.Thinned

theorem thinned_unqueue : s.Thinned (s.unqueue k) := ⟨⟨fun i => i != k, rfl⟩, fun _ => ⟨rfl, rfl⟩⟩

theorem thinned_endReclaim : s.Thinned (s.endReclaim n) := by
  obtain ⟨_, _, _, _, _, _, hqueue⟩ := endReclaim_frame (s := s) (n := n)
  refine ⟨⟨fun _ => true, by rw [hqueue]; exact (List.filter_true _).symm⟩, fun hr => ?_⟩
  have heq : s.endReclaim n = s := by unfold State.endReclaim; rw [hr]
  rw [heq]
  exact ⟨rfl, rfl⟩

theorem thinned_removeEntry : s.Thinned (s.removeEntry k) := by
  have hgone : s.Thinned ((s.unqueue k).wantPass true) := thinned_unqueue.trans (.of_same rfl rfl rfl)
  unfold State.removeEntry
  split
  · exact .refl s
  · dsimp only
    split
    · exact hgone.trans thinned_endReclaim
    · exact hgone

theorem thinned_denyEntry : s.Thinned (s.denyEntry k r) := by
  have hgone : ∀ n, s.Thinned ((((s.unqueue k).wantPass true).modLine k (Line.queueClaim (.deny r))).post .denied (some k) r n) :=
    fun _ => thinned_unqueue.trans (.of_same rfl rfl rfl)
  unfold State.denyEntry
  split
  · exact .refl s
  · dsimp only
    split
    · exact (hgone _).trans thinned_endReclaim
    · exact hgone _

theorem thinned_creditVictim : s.Thinned (s.creditVictim k n) := by
  obtain ⟨_, _, _, _, _, _, hqueue, _⟩ := creditVictim_frame (s := s) (k := k) (n := n)
  refine ⟨⟨fun _ => true, by rw [hqueue]; exact (List.filter_true _).symm⟩, fun hr => ?_⟩
  have heq : s.creditVictim k n = s := by unfold State.creditVictim; rw [hr]
  rw [heq]
  exact ⟨rfl, rfl⟩

theorem thinned_dropLease : s.Thinned (s.dropLease k) := by
  have hset : s.Thinned (s.setLease k none) := .of_same rfl rfl rfl
  unfold State.dropLease
  split
  · exact .refl s
  · dsimp only
    split
    · exact hset.trans (thinned_creditVictim.trans (.of_same rfl rfl rfl))
    · exact .of_same rfl rfl rfl

theorem thinned_post {c : NoticeKind} {i : Option Slot} {r : Reason} {v : Nat} : s.Thinned (s.post c i r v) := .of_same rfl rfl rfl

theorem thinned_enter {st : SessState} : s.Thinned (s.enter k st) := .of_same rfl rfl rfl

theorem thinned_endSession {c : Reason} {st : SessState} : s.Thinned (s.endSession k c st) := by
  have hsame : (s.removeEntry k).Thinned (s.endSession k c st) := by
    unfold State.endSession
    exact .of_same (by rw [State.post_alloc, State.Dropped.alloc_teardown]) (by rw [State.post_alloc, State.Dropped.alloc_teardown])
      (by rw [State.post_alloc, State.Dropped.alloc_teardown])
  exact thinned_removeEntry.trans hsame

theorem entryOf_endSession {c : Reason} {st : SessState} : (s.endSession k c st).entryOf k = none := by
  unfold State.entryOf State.endSession
  rw [State.post_alloc, State.Dropped.alloc_teardown]
  exact entryOf_removeEntry_self

theorem thinned_settle : s.Thinned (s.settle k) := by
  unfold State.settle
  split
  · dsimp only
    split
    · exact thinned_enter
    · exact thinned_enter.trans thinned_denyEntry
  · exact thinned_endSession

/-- The lease of slot `k` is dropped by a recall of origin `o`, and its session settles (R49, R164). -/
def State.cutLease (k : Slot) (o : RecallOrigin) (s : State) : State :=
  ((s.dropLease k).post .cut (some k) o.reason (s.grantedTier k)).settle k

theorem onlyAt_cutLease : State.OnlyAt k s (s.cutLease k o) := (onlyAt_dropLease.trans onlyAt_post).trans onlyAt_settle

theorem thinned_cutLease : s.Thinned (s.cutLease k o) :=
  (thinned_dropLease.trans thinned_post).trans thinned_settle

/-- A lease dropped by a recall leaves the session settled (R49, R53). -/
theorem settles_cutLease (hl : s.leaseOf k = some l) :
    s.Settles (s.cutLease k o) k (s.sessOf k).admitFlag false (s.notices.take .cut (some k) o.reason false l.tier) := by
  have h := ((dropped_dropLease hl).post (c := .cut) (o := some k) (r := o.reason) (v := s.grantedTier k)).settles
  rw [State.post_notices, dropLease_notices, grantedTier_of_lease hl] at h
  unfold State.cutLease
  rw [grantedTier_of_lease hl]
  exact h

/-! ### A recall -/

/-- A recall, state by state: only a lease in ON or in a ramp is reached, and one in a ramp only by host or policy (R46, R49). -/
theorem recall_cases : (s.recall k n o = s ∧ (s.sessOf k).state ≠ .on) ∨
    (s.recall k n o = (s.cancelRaise k).recallOn k n o ∧ (s.sessOf k).state = .on) ∨
    (s.recall k n o = s.cutLease k o ∧ n < s.grantedTier k ∧
      ((s.sessOf k).state = .rampWait ∨ (s.sessOf k).state = .ramping) ∧ (o = .host ∨ o = .policy)) := by
  unfold State.recall State.recallRamp
  cases hs : (s.sessOf k).state with
  | on => exact .inr (.inl ⟨rfl, rfl⟩)
  | rampWait | ramping =>
    cases o with
    | host | policy =>
      dsimp only
      split
      · rename_i h; exact .inr (.inr ⟨rfl, h, by simp, by simp⟩)
      · exact .inl ⟨rfl, by simp⟩
    | preempt | shed | overdraw => exact .inl ⟨rfl, by simp⟩
  | vacant | barred | listening | rejected | standby | faulted => exact .inl ⟨rfl, by simp⟩

theorem recall_of_ramp (hs : (s.sessOf k).state = .rampWait ∨ (s.sessOf k).state = .ramping) (ho : o = .host ∨ o = .policy)
    (hn : n < s.grantedTier k) : s.recall k n o = s.cutLease k o := by
  unfold State.recall State.recallRamp
  rcases hs with hs | hs <;> rcases ho with rfl | rfl <;> rw [hs] <;> exact if_pos hn

theorem onlyAt_recall : State.OnlyAt k s (s.recall k n o) := by
  rcases recall_cases (s := s) (k := k) (n := n) (o := o) with ⟨h, _⟩ | ⟨h, _⟩ | ⟨h, _⟩ <;> rw [h]
  · exact .refl s k
  · exact onlyAt_cancelRaise.trans onlyAt_recallOn
  · exact onlyAt_cutLease

theorem thinned_cancelRaise : s.Thinned (s.cancelRaise k) := by
  unfold State.cancelRaise
  split
  · exact .refl s
  · split
    · exact .of_same rfl rfl rfl
    · exact .refl s

theorem thinned_recallOn : s.Thinned (s.recallOn k n o) := by
  rcases recallOn_cases (s := s) (k := k) n o with h | ⟨l, m, d, _, h⟩ <;> rw [h]
  · exact .refl s
  · exact .of_same rfl rfl rfl

theorem thinned_recall : s.Thinned (s.recall k n o) := by
  rcases recall_cases (s := s) (k := k) (n := n) (o := o) with ⟨h, _⟩ | ⟨h, _⟩ | ⟨h, _⟩ <;> rw [h]
  · exact .refl s
  · exact thinned_cancelRaise.trans thinned_recallOn
  · exact thinned_cutLease

/-! ### The admit flag -/

theorem admitFlag_endSession {c : Reason} {st : SessState} : ((s.endSession k c st).sessOf k).admitFlag = false := by
  unfold State.endSession State.teardown
  dsimp only
  split
  · rw [State.sessOf_post, State.sessOf_modLine, sessOf_enter, State.sessOf_modMon, State.sessOf_modSess, if_pos rfl]
  · rw [State.sessOf_post, sessOf_enter, State.sessOf_modMon, State.sessOf_modSess, if_pos rfl]

/-- No settlement sets an admit flag. -/
theorem admitFlag_cutLease (h : (s.sessOf k).admitFlag = false) : ((s.cutLease k o).sessOf k).admitFlag = false := by
  obtain ⟨hsess, _⟩ := dropLease_keeps (s := s) (k := k)
  have hflag : ((s.dropLease k).sessOf k).admitFlag = false := by
    rw [show (s.dropLease k).sessOf k = s.sessOf k from congrArg (PerSlot.get · k) hsess]; exact h
  unfold State.cutLease State.settle
  dsimp only
  split
  · split
    · rw [sessOf_enter]; exact hflag
    · rw [sessOf_denyEntry, sessOf_enter]; exact hflag
  · exact admitFlag_endSession

theorem sess_recall_of_on (hs : (s.sessOf k).state = .on) : (s.recall k n o).sess = s.sess := by
  obtain ⟨_, hsess, _⟩ := recall_on_frame (n := n) (o := o) hs
  exact hsess

theorem admitFlag_recall (h : (s.sessOf k).admitFlag = false) : ((s.recall k n o).sessOf k).admitFlag = false := by
  rcases recall_cases (s := s) (k := k) (n := n) (o := o) with ⟨heq, _⟩ | ⟨_, hs⟩ | ⟨heq, _⟩
  · rw [heq]; exact h
  · rw [show (s.recall k n o).sessOf k = s.sessOf k from congrArg (PerSlot.get · k) (sess_recall_of_on hs)]; exact h
  · rw [heq]; exact admitFlag_cutLease h

/-! ### EVICT -/

theorem commandsSlot_evict : CommandsSlot (.evict b w) b (fun k => State.evictSlot k w.toNat) := fun _ => rfl

theorem evictSlot_of_nothing (hl : s.leaseOf k = none) (he : s.entryOf k = none) : s.evictSlot k n = s.answered .state :=
  if_pos (by rw [hl, he]; exact ⟨rfl, rfl⟩)

/-- The slot has something to take, a lease or an entry. -/
def State.Evictable (s : State) (k : Slot) : Prop := (s.leaseOf k).isSome = true ∨ (s.entryOf k).isSome = true

theorem evictable_iff : s.Evictable k ↔ ¬ ((s.leaseOf k).isNone = true ∧ (s.entryOf k).isNone = true) := by
  unfold State.Evictable
  cases s.leaseOf k <;> cases s.entryOf k <;> simp

theorem evictSlot_of_badArg (h : s.Evictable k) (hn : 1 < n) : s.evictSlot k n = s.answered .badArg := by
  unfold State.evictSlot
  rw [if_neg (evictable_iff.1 h), if_pos hn]; rfl

/-- Flag and entry of an evicted slot are gone (R164). -/
def State.unadmitted (k : Slot) (s : State) : State := (s.modSess k (fun x => { x with admitFlag := false })).denyEntry k .cancelled

theorem evictSlot_of_taken (h : s.Evictable k) (hn : n ≤ 1) :
    s.evictSlot k n = ((s.unadmitted k).evictLease k (decide (n = 1))).finish.answered .ok := by
  unfold State.evictSlot
  rw [if_neg (evictable_iff.1 h), if_neg (Nat.not_lt.2 hn)]; rfl

theorem sessOf_unadmitted : (s.unadmitted k).sessOf k = { s.sessOf k with admitFlag := false } := by
  unfold State.unadmitted
  rw [sessOf_denyEntry, State.sessOf_modSess, if_pos rfl]

theorem onlyAt_unadmitted : State.OnlyAt k s (s.unadmitted k) := onlyAt_modSess.trans onlyAt_denyEntry

/-- Denial is all that the first part of an eviction does beside the flag (R35, R63, R164). -/
theorem entryDenied_unadmitted : s.EntryDenied (s.unadmitted k) k .cancelled := by
  have honly := onlyAt_unadmitted (s := s) (k := k)
  have hnone : (s.unadmitted k).entryOf k = none := entryOf_denyEntry_self
  have hmoved := entryMoved_denyEntry (s := s.modSess k (fun x => { x with admitFlag := false })) (k := k) (r := .cancelled)
  refine ⟨hnone, hmoved.leases, hmoved.committed, honly.state, hmoved.power, hmoved.mon, honly.raised, honly.host, honly.others,
    fun he => ?_, fun e he => ?_⟩
  · unfold State.unadmitted
    rw [denyEntry_of_none (s := s.modSess k _) he]
    exact ⟨rfl, rfl, rfl⟩
  · have heq : s.unadmitted k = (s.modSess k (fun x => { x with admitFlag := false })).refuseClaim k .claim .cancelled e.wanted :=
      denyEntry_of_entry he
    obtain ⟨_, _, _, _, _, _, _, hline⟩ := refuseClaim_parts (s := s.modSess k (fun x => { x with admitFlag := false })) (k := k)
      (o := .claim) (r := .cancelled) (w := e.wanted) (by decide)
    obtain ⟨hdue, hben, hother⟩ := refuseClaim_reclaim (s := s.modSess k (fun x => { x with admitFlag := false })) (k := k)
      (o := .claim) (r := .cancelled) (w := e.wanted) (by decide)
    have hsome : (s.entryOf k).isSome = true := by rw [he]; rfl
    rw [← heq] at hline hdue hben hother
    have hlineOf : (s.unadmitted k).lineOf k = (s.lineOf k).queueClaim (.deny .cancelled) :=
      (congrArg (PerSlot.get · k) hline).trans (PerSlot.get_set_self _ _ _)
    rw [hlineOf]
    exact ⟨Line.queueClaim_outSession _ _, Line.queueClaim_outRecall _ _,
      Line.queueClaim_after (m := .deny .cancelled) (fun _ _ h => nomatch h) _, hdue.1 hsome, fun hb => hother (.inr hb),
      fun hb => hben hsome hb⟩

/-- The lease of an evicted slot: dropped by a hard eviction in ON, else recalled to 0 (R164). -/
theorem evictLease_cases {h : Bool} : (s.evictLease k h = s.cutLease k .host ∧ (s.sessOf k).state = .on ∧ h = true) ∨
    (s.evictLease k h = s.recall k 0 .host ∧ ((s.sessOf k).state = .on → h = false)) := by
  unfold State.evictLease
  cases hs : (s.sessOf k).state <;> cases h <;> simp [State.cutLease, RecallOrigin.reason]

theorem onlyAt_evictLease {h : Bool} : State.OnlyAt k s (s.evictLease k h) := by
  rcases evictLease_cases (s := s) (k := k) (h := h) with ⟨heq, _⟩ | ⟨heq, _⟩ <;> rw [heq]
  · exact onlyAt_cutLease
  · exact onlyAt_recall

theorem thinned_evictLease {h : Bool} : s.Thinned (s.evictLease k h) := by
  rcases evictLease_cases (s := s) (k := k) (h := h) with ⟨heq, _⟩ | ⟨heq, _⟩ <;> rw [heq]
  · exact thinned_cutLease
  · exact thinned_recall

theorem admitFlag_evictLease {h : Bool} (hf : (s.sessOf k).admitFlag = false) : ((s.evictLease k h).sessOf k).admitFlag = false := by
  rcases evictLease_cases (s := s) (k := k) (h := h) with ⟨heq, _⟩ | ⟨heq, _⟩ <;> rw [heq]
  · exact admitFlag_cutLease hf
  · exact admitFlag_recall hf

theorem evictLease_of_standby {h : Bool} (hs : (s.sessOf k).state = .standby) : s.evictLease k h = s := by
  unfold State.evictLease State.recall
  rw [hs]

/-- A lease in a ramp goes at once, as does one in ON by a hard eviction (R49, R164). -/
theorem evictLease_cut {h : Bool} (hl : s.leaseOf k = some l) (hp : 1 ≤ l.tier)
    (hs : (s.sessOf k).state = .on ∧ h = true ∨ (s.sessOf k).state = .rampWait ∨ (s.sessOf k).state = .ramping) :
    s.evictLease k h = s.cutLease k .host := by
  rcases evictLease_cases (s := s) (k := k) (h := h) with ⟨heq, _⟩ | ⟨heq, hsoft⟩
  · exact heq
  · rcases hs with ⟨hs, hh⟩ | hs
    · rw [hsoft hs] at hh; cases hh
    · rw [heq]
      exact recall_of_ramp hs (.inl rfl) (by rw [grantedTier_of_lease hl]; exact hp)

theorem evictLease_soft (hs : (s.sessOf k).state = .on) : s.evictLease k false = s.recall k 0 .host := by
  unfold State.evictLease; rw [hs]

/-- Settles O42: flag and entry go first, then the lease by its phase and the argument. -/
theorem evictTakesFlagEntryAndLease : Obligations.EvictTakesFlagEntryAndLease := by
  unfold Obligations.EvictTakesFlagEntryAndLease
  intro b w k s hd hi hb
  rw [commandsSlot_evict.exec_slot hd hi hb]
  refine ⟨fun hl he => congrArg Host.Outcome.next (evictSlot_of_nothing hl he),
    fun h hw => congrArg Host.Outcome.next (evictSlot_of_badArg h hw), fun h hw => ?_⟩
  have hsess := sessOf_unadmitted (s := s) (k := k)
  have hdenied := entryDenied_unadmitted (s := s) (k := k)
  have honlyv := onlyAt_unadmitted (s := s) (k := k)
  rw [evictSlot_of_taken h hw]
  generalize s.unadmitted k = v at *
  obtain ⟨hnone, hleases, hcommitted, hstate, hpower, hmon, _, _, _, hentryless, hentry⟩ := id hdenied
  have hleaseOf : v.leaseOf k = s.leaseOf k := congrArg (PerSlot.get · k) hleases
  have hstateOf : (v.sessOf k).state = (s.sessOf k).state := by rw [hsess]
  have hflag : (v.sessOf k).admitFlag = false := by rw [hsess]
  have honly := honlyv.trans (onlyAt_evictLease (h := decide (w.toNat = 1)))
  have hthin := thinned_evictLease (s := v) (k := k) (h := decide (w.toNat = 1))
  refine ⟨_, rfl, honly.host, honly.others, honly.raised, admitFlag_evictLease hflag, hthin.entryOf_none hnone,
    fun e he hben => ?_, fun e he hl hs hben => ?_, v, hdenied, hsess, fun _ hs => ?_, fun l hl hp => ⟨fun hs hw => ?_, fun hs => ?_⟩⟩
  · obtain ⟨_, _, _, _, _, hgone⟩ := hentry e he
    obtain ⟨hreclaim, hearmark, _⟩ := hgone hben
    obtain ⟨hreclaim', hearmark'⟩ := hthin.reclaim hreclaim
    exact ⟨hreclaim'.trans hreclaim, hearmark'.trans hearmark⟩
  · obtain ⟨_, _, hclaim, _, hstays, _⟩ := hentry e he
    obtain ⟨_, _, hnotices⟩ := hstays hben
    rw [evictLease_of_standby (hstateOf.trans hs)]
    exact ⟨hsess, hpower, hmon, hclaim, hnotices⟩
  · exact evictLease_of_standby (hstateOf.trans hs)
  · rw [hw, show decide ((0 : Word).toNat = 1) = false from rfl, evictLease_soft (hstateOf.trans hs)]
    obtain ⟨_, hsess', hpower', hmon', _⟩ := recall_on_frame (n := 0) (o := .host) (hstateOf.trans hs)
    exact ⟨recall_stands (hstateOf.trans hs) (hleaseOf.trans hl) hp, hsess', hpower'.trans hpower, hmon'.trans hmon⟩
  · have hcut := evictLease_cut (s := v) (h := decide (w.toNat = 1)) (hleaseOf.trans hl) hp (hs.imp
      (fun h => ⟨hstateOf.trans h.1, by rw [h.2]; rfl⟩) fun h => by rw [hstateOf]; exact h)
    rw [hcut]
    have hsettles := settles_cutLease (o := .host) (hleaseOf.trans hl)
    rw [hflag] at hsettles
    exact hsettles

end Sys2Proof.Machine
end

section
/-! PROOFS. The queue checked again: entries denied, each by the check it fails, and all others kept (R28). -/

namespace Sys2Proof.Machine

variable {s t u : State} {j k : Slot} {e : Entry} {r : Reason} {n : Nat} {bad : State → Slot → Nat → Bool}

/-! ### Entries denied -/

/-- Some entries, and nothing else, have been denied on the way from `s` to `t` (R35): a GRANT in a claim channel stands. -/
structure State.Denials (s t : State) : Prop where
  host : s.HostSame t
  raised : t.raised = s.raised
  state : t.alloc.state = s.alloc.state
  leases : t.alloc.leases = s.alloc.leases
  committed : t.alloc.committed = s.alloc.committed
  sess : t.sess = s.sess
  power : t.power = s.power
  mon : t.mon = s.mon
  thinned : s.Thinned t
  reclaim : (t.alloc.reclaim = none ∧ t.alloc.earmark = 0) ∨ s.ReclaimSame t
  grant : ∀ j n b, (s.lineOf j).outClaim = some (.grant n b) → (t.lineOf j).outClaim = some (.grant n b)

namespace State.Denials

theorem refl (s : State) : s.Denials s where
  host := (State.OnlyAt.refl s 0).host
  raised := rfl
  state := rfl
  leases := rfl
  committed := rfl
  sess := rfl
  power := rfl
  mon := rfl
  thinned := .refl s
  reclaim := .inr ⟨rfl, rfl⟩
  grant _ _ _ h := h

theorem trans (h : s.Denials t) (g : t.Denials u) : s.Denials u where
  host := h.host.trans g.host
  raised := g.raised.trans h.raised
  state := g.state.trans h.state
  leases := g.leases.trans h.leases
  committed := g.committed.trans h.committed
  sess := g.sess.trans h.sess
  power := g.power.trans h.power
  mon := g.mon.trans h.mon
  thinned := h.thinned.trans g.thinned
  reclaim := by
    rcases g.reclaim with g | ⟨greclaim, gearmark⟩
    · exact .inl g
    · rcases h.reclaim with ⟨hreclaim, hearmark⟩ | ⟨hreclaim, hearmark⟩
      · exact .inl ⟨greclaim.trans hreclaim, gearmark.trans hearmark⟩
      · exact .inr ⟨greclaim.trans hreclaim, gearmark.trans hearmark⟩
  grant j n b hs := g.grant j n b (h.grant j n b hs)

theorem sessOf (h : s.Denials t) (j : Slot) : t.sessOf j = s.sessOf j := congrArg (PerSlot.get · j) h.sess

theorem leaseOf (h : s.Denials t) (j : Slot) : t.leaseOf j = s.leaseOf j := congrArg (PerSlot.get · j) h.leases

theorem drawOf (h : s.Denials t) (j : Slot) (n : Nat) : t.drawOf j n = s.drawOf j n := drawOf_congr (by rw [h.sessOf]) n

theorem funds (h : s.Denials t) : s.SameFunds t := ⟨h.host.2.1, h.leases, h.sess, h.committed⟩

end State.Denials

theorem neverFits_congr (hc : t.cmd = s.cmd) (hs : t.sess = s.sess) (j : Slot) (n : Nat) : t.neverFits j n = s.neverFits j n := by
  have hsess : t.sessOf j = s.sessOf j := congrArg (PerSlot.get · j) hs
  have hdraw : t.drawOf j n = s.drawOf j n := drawOf_congr (by rw [hsess]) n
  unfold State.neverFits State.floorSum
  rw [available_of_cmd hc, funext (floorOf_of_cmd hc), hdraw]

theorem denials_denyEntry : s.Denials (s.denyEntry k r) := by
  have honly := onlyAt_denyEntry (s := s) (k := k) (r := r)
  have hmoved := entryMoved_denyEntry (s := s) (k := k) (r := r)
  refine ⟨honly.host, honly.raised, honly.state, hmoved.leases, hmoved.committed, hmoved.sess, hmoved.power, hmoved.mon,
    thinned_denyEntry, ?_, fun j n b h => ?_⟩
  · by_cases h : s.entryOf k = none ∨ s.isBeneficiary k = false
    · refine .inr (hmoved.reclaim (h.imp_left fun h => ?_))
      rw [denyEntry_of_none h]
    · rw [not_or, Bool.not_eq_false] at h
      exact .inl (hmoved.abandoned (Option.isSome_iff_ne_none.2 h.1) h.2 entryOf_denyEntry_self)
  · by_cases hj : j = k
    · subst hj
      cases he : s.entryOf j with
      | none => rw [denyEntry_of_none he]; exact h
      | some e =>
        rw [denyEntry_of_entry he]
        obtain ⟨_, _, _, _, _, _, _, hline⟩ := refuseClaim_parts (s := s) (k := j) (o := .claim) (r := r) (w := e.wanted) (by decide)
        rw [show State.lineOf _ j = _ from congrArg (PerSlot.get · j) hline, PerSlot.get_set_self,
          Line.queueClaim_after (m := .deny r) (fun _ _ h => nomatch h), h]
        rfl
    · obtain ⟨_, _, hline, _⟩ := honly.others j hj
      rw [hline]; exact h

/-! ### A slot checked again -/

theorem recheckSlot_of_bad (he : s.entryOf k = some e) (hb : bad s k e.least = true) : s.recheckSlot bad r k = s.denyEntry k r := by
  unfold State.recheckSlot
  rw [he]
  exact if_pos hb

theorem recheckSlot_of_good (h : ∀ e, s.entryOf k = some e → bad s k e.least = false) : s.recheckSlot bad r k = s := by
  unfold State.recheckSlot
  split
  · rfl
  · rename_i e he
    exact if_neg (by rw [h e he]; decide)

theorem denials_recheckSlot : s.Denials (s.recheckSlot bad r k) := by
  unfold State.recheckSlot
  split
  · exact .refl s
  · split
    · exact denials_denyEntry
    · exact .refl s

/-- The entry of a slot checked again stands where it passes. -/
theorem entryOf_recheckSlot : (s.recheckSlot bad r k).entryOf k = (s.entryOf k).filter (fun e => !bad s k e.least) := by
  cases he : s.entryOf k with
  | none => rw [recheckSlot_of_good (fun e h => by rw [he] at h; cases h), he]; rfl
  | some e =>
    cases hb : bad s k e.least with
    | true => rw [recheckSlot_of_bad he hb, entryOf_denyEntry_self, Option.filter_some, hb]; rfl
    | false =>
      rw [recheckSlot_of_good (fun e' h => by rw [he] at h; cases h; exact hb), he, Option.filter_some, hb]; rfl

theorem entryOf_recheckSlot_ne (h : j ≠ k) : (s.recheckSlot bad r k).entryOf j = s.entryOf j := by
  unfold State.recheckSlot
  split
  · rfl
  · split
    · obtain ⟨_, _, _, _, _, hentry⟩ := (onlyAt_denyEntry (s := s) (k := k) (r := r)).others j h
      exact hentry
    · rfl

/-! ### Every entry checked again -/

/-- Check 6 made again for the entries of the slots `ks`, one after the other. -/
theorem recheckSlots_spec (ks : List Slot) (s : State) :
    s.Denials (ks.foldl (fun t k => t.recheckSlot State.neverFits .neverFits k) s) ∧
    ∀ j, (ks.foldl (fun t k => t.recheckSlot State.neverFits .neverFits k) s).entryOf j =
      if j ∈ ks then (s.entryOf j).filter (fun e => !s.neverFits j e.least) else s.entryOf j := by
  induction ks generalizing s with
  | nil => exact ⟨.refl s, fun j => (if_neg List.not_mem_nil).symm⟩
  | cons k ks ih =>
    have hstep : s.Denials (s.recheckSlot State.neverFits .neverFits k) := denials_recheckSlot
    obtain ⟨hrest, hentry⟩ := ih (s.recheckSlot State.neverFits .neverFits k)
    refine ⟨hstep.trans hrest, fun j => ?_⟩
    have hsame : ∀ n, (s.recheckSlot State.neverFits .neverFits k).neverFits j n = s.neverFits j n :=
      neverFits_congr hstep.host.2.1 hstep.sess j
    rw [List.foldl_cons, hentry j]
    simp only [hsame]
    by_cases hj : j = k
    · subst hj
      rw [entryOf_recheckSlot, if_pos List.mem_cons_self, Option.filter_filter]
      simp
    · rw [entryOf_recheckSlot_ne hj]
      simp [hj]

theorem denials_recheckFits : s.Denials s.recheckFits := (recheckSlots_spec _ s).1

/-- Of all entries those stand that pass check 6 (R28). -/
theorem entryOf_recheckFits : s.recheckFits.entryOf j = (s.entryOf j).filter (fun e => !s.neverFits j e.least) := by
  rw [State.recheckFits, (recheckSlots_spec _ s).2 j]
  by_cases h : j ∈ s.alloc.queue.map Entry.slot
  · exact if_pos h
  · have hnone : s.entryOf j = none := List.find?_eq_none.2 fun x hx hxj => h (List.mem_map.2 ⟨x, hx, eq_of_beq hxj⟩)
    rw [if_neg h, hnone]; rfl

theorem of_entryOf_recheckFits (h : s.recheckFits.entryOf j = some e) : s.entryOf j = some e ∧ s.neverFits j e.least = false := by
  rw [entryOf_recheckFits, Option.filter_eq_some_iff] at h
  exact ⟨h.1, by simpa using h.2⟩

theorem entryOf_recheckFits_of_fits (he : s.entryOf j = some e) (h : s.neverFits j e.least = false) :
    s.recheckFits.entryOf j = some e := by
  rw [entryOf_recheckFits, he, Option.filter_some, h]; rfl

/-- With no entry there is nothing to check. -/
theorem recheckFits_of_empty (h : s.alloc.queue = []) : s.recheckFits = s := by
  unfold State.recheckFits; rw [h]; rfl

end Sys2Proof.Machine
end

section
/-! PROOFS. SET_BUDGET: its checks, the queue checked again and the test for shedding, with what a plan carried out leaves (R28, R66, R69, R162). -/

namespace Sys2Proof.Machine

variable {s t b : State} {j k : Slot} {e : Entry} {l : Lease} {n w limit reserve : Nat} {p : Slot × ShedChoice}

/-! ### The settlement of a lease that sheds -/

/-- A claim that passes its checks passes check 6 (R27). -/
theorem neverFits_of_admission (h : s.admission k w n = none) : s.neverFits k n = false := by
  unfold State.admission at h
  by_contra hn
  rw [Bool.not_eq_false] at hn
  rw [hn] at h
  repeat' (first | cases h | split at h)

/-- The entry after a RESTORE was there before it, or has passed check 6 for tier 1 (R33). -/
theorem entryOf_restoreClaim (he : (s.takeClaim k .restore w 1).entryOf k = some e) : e.least = 1 ∧ s.neverFits k 1 = false := by
  cases h : s.admission k (s.restoredTier k w) 1 with
  | some r =>
    rw [takeClaim_restore_refused h] at he
    obtain ⟨_, hnone, _⟩ := refuseClaim_parts (s := s) (k := k) (o := .restore) (r := r) (w := s.restoredTier k w) (by decide)
    rw [hnone] at he; cases he
  | none =>
    obtain ⟨m, heq⟩ := takeClaim_restore_passed h
    obtain ⟨e', he', _, _, hleast, _⟩ := entryOf_putRestore (s := s) (k := k) (w := s.restoredTier k w)
    rw [heq, State.entryOf_post, State.entryOf_wantPass, he'] at he
    cases he
    exact ⟨hleast, neverFits_of_admission h⟩

/-- A settlement leaves the slot its descriptor, or no entry in a BARRED session (R53, R91). -/
theorem desc_settle : ((s.settle k).sessOf k).desc = (s.sessOf k).desc ∨
    (s.settle k).entryOf k = none ∧ ((s.settle k).sessOf k).state = .barred := by
  unfold State.settle
  split
  · refine .inl ?_
    dsimp only
    split
    · rw [sessOf_enter]
    · rw [sessOf_denyEntry, sessOf_enter]
  · refine .inr ⟨entryOf_endSession, ?_⟩
    unfold State.endSession State.teardown
    dsimp only
    split
    · rw [State.sessOf_post, State.sessOf_modLine, sessOf_enter]
    · rw [State.sessOf_post, sessOf_enter]

/-- What a settlement with its RESTORE leaves of entry and descriptor. -/
theorem settleRestoring_entry :
    (∀ e, (s.settleRestoring k w).entryOf k = some e → s.entryOf k = some e ∨ e.least = 1 ∧ s.neverFits k 1 = false) ∧
    (((s.settleRestoring k w).sessOf k).desc = (s.sessOf k).desc ∨
      (s.settleRestoring k w).entryOf k = none ∧ ((s.settleRestoring k w).sessOf k).state = .barred) := by
  have hthin := thinned_settle (s := s) (k := k)
  have hdesc := desc_settle (s := s) (k := k)
  have hplain : (∀ e, (s.settle k).entryOf k = some e → s.entryOf k = some e ∨ e.least = 1 ∧ s.neverFits k 1 = false) ∧
      (((s.settle k).sessOf k).desc = (s.sessOf k).desc ∨ (s.settle k).entryOf k = none ∧ ((s.settle k).sessOf k).state = .barred) :=
    ⟨fun e he => .inl (hthin.of_entryOf he), hdesc⟩
  unfold State.settleRestoring State.restore
  dsimp only
  split
  · rename_i hen
    split
    · have honly := onlyAt_settle (s := s) (k := k)
      have hstands : ((s.settle k).sessOf k).desc = (s.sessOf k).desc := by
        unfold State.settle
        rw [if_pos hen]
        dsimp only
        split
        · rw [sessOf_enter]
        · rw [sessOf_denyEntry, sessOf_enter]
      have hmoved := entryMoved_restoreClaim (s := s.settle k) (k := k) (w := w)
      have hsess : ((s.settle k).takeClaim k .restore w 1).sessOf k = (s.settle k).sessOf k := congrArg (PerSlot.get · k) hmoved.sess
      refine ⟨fun e he => .inr ?_, .inl (by rw [hsess]; exact hstands)⟩
      obtain ⟨hleast, hfits⟩ := entryOf_restoreClaim he
      refine ⟨hleast, ?_⟩
      have hdraw : (s.settle k).drawOf k 1 = s.drawOf k 1 := drawOf_congr hstands 1
      rw [← hfits]
      unfold State.neverFits
      rw [honly.available, honly.floorOf, honly.floorSum, hdraw]
    · exact hplain
  · exact hplain

/-! ### A plan carried out -/

/-- One choice carried out aborts a ramp, or leaves sessions and entries as they are (R69). -/
theorem carryOut_cases : ((s.carryOut p).sess = s.sess ∧ (s.carryOut p).alloc.queue = s.alloc.queue ∧ s.Thinned (s.carryOut p) ∧
      State.OnlyAt p.1 s (s.carryOut p) ∧ s.notices.records <+: (s.carryOut p).notices.records) ∨
    s.carryOut p = ((s.dropLease p.1).post .cut (some p.1) .shed (s.grantedTier p.1)).settleRestoring p.1 (s.grantedTier p.1) ∧
      ((s.sessOf p.1).state = .rampWait ∨ (s.sessOf p.1).state = .ramping) := by
  have hcancel : (s.cancelRaise p.1).sess = s.sess ∧ (s.cancelRaise p.1).alloc.queue = s.alloc.queue ∧
      (s.cancelRaise p.1).notices = s.notices := by
    unfold State.cancelRaise
    split
    · exact ⟨rfl, rfl, rfl⟩
    · split <;> exact ⟨rfl, rfl, rfl⟩
  obtain ⟨hsess, hqueue, hnotices⟩ := hcancel
  have hsame : s.sess = s.sess ∧ s.alloc.queue = s.alloc.queue ∧ s.Thinned s ∧ State.OnlyAt p.1 s s ∧
      s.notices.records <+: s.notices.records := ⟨rfl, rfl, .refl s, .refl s p.1, List.prefix_refl _⟩
  unfold State.carryOut
  rcases p.2 with _ | m | _
  · exact .inl ⟨hsess, hqueue, thinned_cancelRaise, onlyAt_cancelRaise, by rw [hnotices]⟩
  · refine .inl ?_
    dsimp only
    rcases recall_cases (s := s) (k := p.1) (n := m) (o := .shed) with ⟨heq, _⟩ | ⟨heq, _⟩ | ⟨_, _, _, ho⟩
    · rw [heq]; exact hsame
    · refine ⟨?_, ?_, thinned_recall, onlyAt_recall, ?_⟩ <;> rw [heq] <;>
        rcases recallOn_cases (s := s.cancelRaise p.1) (k := p.1) m .shed with hr | ⟨l, m', d, _, hr⟩ <;> rw [hr]
      · exact hsess
      · exact hsess
      · exact hqueue
      · exact hqueue
      · rw [hnotices]
      · rw [← hnotices]; exact take_records ..
    · rcases ho with ho | ho <;> cases ho
  · dsimp only
    by_cases hramp : (s.sessOf p.1).state = .rampWait ∨ (s.sessOf p.1).state = .ramping
    · refine .inr ⟨?_, hramp⟩
      unfold State.abortRamp
      rcases hramp with h | h <;> rw [h]
    · have heq : s.abortRamp p.1 = s := by
        unfold State.abortRamp
        rw [not_or] at hramp
        split
        · rename_i h; exact absurd h hramp.1
        · rename_i h; exact absurd h hramp.2
        all_goals rfl
      rw [heq]
      exact .inl hsame

/-- Part of a plan made at `b` has been carried out in `t`: it begins no reclaim, and the entries are those of `b` and RESTOREs that
have passed check 6 (R33, R69). -/
structure State.Shed (b t : State) : Prop where
  host : b.HostSame t
  raised : t.raised = b.raised
  state : t.alloc.state = b.alloc.state
  reclaim : b.alloc.reclaim = none → t.alloc.reclaim = none
  notices : b.notices.records <+: t.notices.records
  entry : ∀ j e, t.entryOf j = some e → b.entryOf j = some e ∨ e.least = 1 ∧ b.neverFits j 1 = false
  desc : ∀ j, (t.sessOf j).desc = (b.sessOf j).desc ∨ t.entryOf j = none ∧ (t.sessOf j).state = .barred

theorem State.Shed.refl (b : State) : b.Shed b where
  host := (State.OnlyAt.refl b 0).host
  raised := rfl
  state := rfl
  reclaim h := h
  notices := List.prefix_refl _
  entry _ _ h := .inl h
  desc _ := .inl rfl

/-- A ramp aborted, with its RESTORE. -/
theorem State.Shed.abort (h : b.Shed s) (hs : (s.sessOf k).state = .rampWait ∨ (s.sessOf k).state = .ramping) {m : Nat} :
    b.Shed (((s.dropLease k).post .cut (some k) .shed m).settleRestoring k m) := by
  have honly : State.OnlyAt k s ((s.dropLease k).post .cut (some k) .shed m) := onlyAt_dropPost
  have hall := honly.trans (onlyAt_settleRestoring (w := m))
  have hsettling : ((s.dropLease k).post .cut (some k) .shed m).Settling _ := settling_settleRestoring (k := k) (w := m)
  obtain ⟨hsess, _⟩ := dropLease_keeps (s := s) (k := k)
  have hsessOf : ((s.dropLease k).post .cut (some k) .shed m).sessOf k = s.sessOf k := congrArg (PerSlot.get · k) hsess
  have hentryOf : ((s.dropLease k).post .cut (some k) .shed m).entryOf k = s.entryOf k := dropLease_credits.2
  have hdesc : (s.sessOf k).desc = (b.sessOf k).desc := (h.desc k).resolve_right fun ⟨_, hb⟩ => by
    rcases hs with hs | hs <;> rw [hs] at hb <;> cases hb
  have hfits : ((s.dropLease k).post .cut (some k) .shed m).neverFits k 1 = b.neverFits k 1 := by
    have hcmd := honly.cmd.trans h.host.2.1
    have hdraw := drawOf_congr (show (((s.dropLease k).post .cut (some k) .shed m).sessOf k).desc = (b.sessOf k).desc by
      rw [hsessOf]; exact hdesc) 1
    unfold State.neverFits State.floorSum
    rw [available_of_cmd hcmd, funext (floorOf_of_cmd hcmd), hdraw]
  have hrecords : s.notices.records <+: ((s.dropLease k).post .cut (some k) .shed m).notices.records := by
    rw [State.post_notices, dropLease_notices]; exact take_records ..
  obtain ⟨hentry, hdescs⟩ := settleRestoring_entry (s := (s.dropLease k).post .cut (some k) .shed m) (k := k) (w := m)
  rw [hsessOf] at hdescs
  simp only [hentryOf, hfits] at hentry
  refine ⟨h.host.trans hall.host, hall.raised.trans h.raised, hall.state.trans h.state, fun hr => ?_,
    h.notices.trans (hrecords.trans hsettling.notices), fun j e he => ?_, fun j => ?_⟩
  · exact hsettling.reclaim.elim id fun hsame => hsame.1.trans (dropLease_reclaim (h.reclaim hr))
  · by_cases hj : j = k
    · subst hj
      exact (hentry e he).elim (h.entry j e) .inr
    · obtain ⟨_, _, _, _, _, hsame⟩ := hall.others j hj
      exact h.entry j e (hsame.symm.trans he)
  · by_cases hj : j = k
    · subst hj
      exact hdescs.imp_left fun hd => hd.trans hdesc
    · obtain ⟨hsess', _, _, _, _, hsame⟩ := hall.others j hj
      rw [hsess', hsame]
      exact h.desc j

theorem State.Shed.carryOut (h : b.Shed s) : b.Shed (s.carryOut p) := by
  rcases carryOut_cases (s := s) (p := p) with ⟨hsess, hqueue, hthin, honly, hnotices⟩ | ⟨heq, hs⟩
  · have hsessOf : ∀ j, (s.carryOut p).sessOf j = s.sessOf j := fun j => congrArg (PerSlot.get · j) hsess
    have hentryOf : ∀ j, (s.carryOut p).entryOf j = s.entryOf j := fun j => entryOf_eq_of_queue hqueue
    refine ⟨h.host.trans honly.host, honly.raised.trans h.raised, honly.state.trans h.state,
      fun hr => (hthin.reclaim (h.reclaim hr)).1.trans (h.reclaim hr), h.notices.trans hnotices, fun j e he => ?_, fun j => ?_⟩
    · exact h.entry j e ((hentryOf j).symm.trans he)
    · rw [hsessOf, hentryOf]; exact h.desc j
  · rw [heq]; exact h.abort hs

theorem State.Shed.plan (h : b.Shed s) (ps : List (Slot × ShedChoice)) : b.Shed (ps.foldl State.carryOut s) := by
  induction ps generalizing s with
  | nil => exact h
  | cons p ps ih => exact ih h.carryOut

/-! ### The test for shedding -/

theorem abandonReclaim_of_none (h : s.alloc.reclaim = none) : s.abandonReclaim = s := by
  unfold State.abandonReclaim State.endReclaim; rw [h]

theorem reclaim_abandonReclaim : s.abandonReclaim.alloc.reclaim = none := by
  unfold State.abandonReclaim State.endReclaim
  split
  · assumption
  · rfl

theorem earmark_abandonReclaim (h : s.EarmarkLaw) : s.abandonReclaim.alloc.earmark = 0 := by
  unfold State.EarmarkLaw at h
  unfold State.abandonReclaim State.endReclaim
  split
  · rename_i hr; rw [hr] at h; exact h
  · rfl

theorem State.Denials.earmarkLaw (h : s.Denials t) (he : s.EarmarkLaw) : t.EarmarkLaw := by
  unfold State.EarmarkLaw at he ⊢
  rcases h.reclaim with ⟨hreclaim, hearmark⟩ | ⟨hreclaim, hearmark⟩
  · rw [hreclaim]; exact hearmark
  · rw [hreclaim, hearmark]; exact he

/-- Shedding has begun, or goes on (R66). -/
def State.shedBegun (s : State) : State :=
  if s.alloc.state = .shedding then s
  else ({ s with alloc := { s.alloc with state := .shedding } }).post .shedBegin none .none (s.alloc.committed - s.available)

/-- The three ends of the test (R66). -/
theorem testShedding_of_within (h : s.alloc.committed + s.alloc.earmark ≤ s.available) : s.testShedding = s := if_pos h

theorem testShedding_of_earmark (h : ¬ s.alloc.committed + s.alloc.earmark ≤ s.available) (hc : s.alloc.committed ≤ s.available) :
    s.testShedding = s.abandonReclaim.wantPass true := by
  have hfunds := sameFunds_abandonReclaim (s := s)
  unfold State.testShedding
  rw [if_neg h]
  exact if_pos (by rw [hfunds.committed, hfunds.available]; exact hc)

theorem testShedding_of_excess (h : s.available < s.alloc.committed) :
    s.testShedding = s.abandonReclaim.shedBegun.shedPlan.foldl State.carryOut s.abandonReclaim.shedBegun := by
  have hfunds := sameFunds_abandonReclaim (s := s)
  unfold State.testShedding
  rw [if_neg (by omega)]
  exact if_neg (by rw [hfunds.committed, hfunds.available]; omega)

/-- What the begin of shedding leaves of a state. -/
theorem shedBegun_parts : s.HostSame s.shedBegun ∧ s.shedBegun.raised = s.raised ∧ s.shedBegun.alloc.state = .shedding ∧
    s.shedBegun.alloc.reclaim = s.alloc.reclaim ∧ s.shedBegun.alloc.queue = s.alloc.queue ∧ s.shedBegun.sess = s.sess ∧
    s.shedBegun.notices = if s.alloc.state = .shedding then s.notices
      else s.notices.take .shedBegin none .none false (s.alloc.committed - s.available) := by
  unfold State.shedBegun
  split
  · rename_i h; exact ⟨(State.OnlyAt.refl s 0).host, rfl, h, rfl, rfl, rfl, rfl⟩
  · exact ⟨⟨rfl, rfl, rfl, rfl, rfl⟩, rfl, rfl, rfl, rfl, rfl, rfl⟩

/-- Where committed lies within available the test moves no lease, and ends a reclaim that available no longer covers (R66). -/
theorem testShedding_unshed (h : s.alloc.committed ≤ s.available) : State.OnlyAt 0 s s.testShedding ∧ s.SameFunds s.testShedding ∧
    s.testShedding.power = s.power ∧ s.testShedding.mon = s.mon ∧ s.testShedding.alloc.queue = s.alloc.queue ∧
    (s.testShedding.alloc.reclaim.isSome = true → s.alloc.committed + s.testShedding.alloc.earmark ≤ s.available) ∧
    (s.testShedding = s ∨ s.testShedding = s.abandonReclaim.wantPass true) := by
  by_cases hsum : s.alloc.committed + s.alloc.earmark ≤ s.available
  · rw [testShedding_of_within hsum]
    exact ⟨.refl s 0, ⟨rfl, rfl, rfl, rfl⟩, rfl, rfl, rfl, fun _ => hsum, .inl rfl⟩
  · obtain ⟨_, _, hpower, hmon, _, _, hqueue⟩ := endReclaim_frame (s := s) (n := 2)
    rw [testShedding_of_earmark hsum h]
    refine ⟨onlyAt_endReclaim.trans onlyAt_wantPass, sameFunds_abandonReclaim.trans ⟨rfl, rfl, rfl, rfl⟩, hpower, hmon, hqueue,
      fun hr => ?_, .inr rfl⟩
    have hnone : s.abandonReclaim.alloc.reclaim = none := reclaim_abandonReclaim
    rw [show (s.abandonReclaim.wantPass true).alloc.reclaim = none from hnone] at hr
    cases hr

/-- Where committed exceeds available the test ends in SHEDDING without a reclaim, its entries those it found and RESTOREs (R66, R69). -/
theorem testShedding_shed (h : s.available < s.alloc.committed) : s.HostSame s.testShedding ∧ s.testShedding.raised = s.raised ∧
    s.testShedding.alloc.state = .shedding ∧ s.testShedding.alloc.reclaim = none ∧
    (∀ j e, s.testShedding.entryOf j = some e → s.entryOf j = some e ∨ e.least = 1 ∧ s.neverFits j 1 = false) ∧
    (s.alloc.reclaim = none → (if s.alloc.state = .shedding then s.notices
      else s.notices.take .shedBegin none .none false (s.alloc.committed - s.available)).records <+: s.testShedding.notices.records) := by
  have hend : State.OnlyAt 0 s s.abandonReclaim := onlyAt_endReclaim
  obtain ⟨hsess, _, _, _, _, _, hqueue⟩ := endReclaim_frame (s := s) (n := 2)
  obtain ⟨hhost, hraised, hstate, hreclaim, hqueue', hsess', hnotices⟩ := shedBegun_parts (s := s.abandonReclaim)
  have hshed := (State.Shed.refl s.abandonReclaim.shedBegun).plan s.abandonReclaim.shedBegun.shedPlan
  rw [testShedding_of_excess h]
  have hhosts := hend.host.trans hhost
  refine ⟨hhosts.trans hshed.host, hshed.raised.trans (hraised.trans hend.raised), hshed.state.trans hstate,
    hshed.reclaim (hreclaim.trans reclaim_abandonReclaim), fun j e he => ?_, fun hr => ?_⟩
  · have hentry : s.abandonReclaim.shedBegun.entryOf j = s.entryOf j := entryOf_eq_of_queue (hqueue'.trans hqueue)
    have hfits := neverFits_congr hhosts.2.1 (hsess'.trans hsess) j 1
    rw [← hentry, ← hfits]
    exact hshed.entry j e he
  · have hkept := hshed.notices
    rw [hnotices] at hkept
    rw [abandonReclaim_of_none hr] at hkept ⊢
    exact hkept

/-! ### SET_BUDGET -/

theorem commands_setBudget {x y : Word} : Commands (.setBudget x y) (State.setBudget x.toNat y.toNat) := fun _ => rfl

/-- The arguments of SET_BUDGET lie in range, and the reserve is within the limit (R162). -/
def Ordered (limit reserve : Nat) : Prop := limit ≤ 32767 ∧ reserve ≤ 32767 ∧ reserve ≤ limit

theorem setBudget_badArg (h : ¬ Ordered limit reserve) : s.setBudget limit reserve = s.answered .badArg :=
  if_pos (by unfold Ordered at h; omega)

theorem setBudget_floorConflict (h : Ordered limit reserve) (hf : limit - reserve < s.floorSum) :
    s.setBudget limit reserve = s.answered .floorConflict := by
  obtain ⟨h1, h2, h3⟩ := h
  unfold State.setBudget
  rw [if_neg (by omega), if_pos hf]; rfl

theorem setBudget_taken (h : Ordered limit reserve) (hf : s.floorSum ≤ limit - reserve) :
    s.setBudget limit reserve = (s.applyBudget limit reserve).answered .ok := by
  obtain ⟨h1, h2, h3⟩ := h
  unfold State.setBudget
  rw [if_neg (by omega), if_neg (by omega)]; rfl

/-- The new limits in force (R162). -/
def State.limited (limit reserve : Nat) (s : State) : State := s.modSettings (fun x => { x with supplyLimit := limit, reserve := reserve })

theorem denials_budgeted : (s.limited limit reserve).Denials (s.budgeted limit reserve) := denials_recheckFits

theorem fits_limited {j : Slot} {n : Nat} : (s.limited limit reserve).neverFits j n = false ↔
    max (s.floorOf j) (s.drawOf j n) + s.floorSum ≤ (limit - reserve) + s.floorOf j :=
  decide_eq_false_iff_not.trans Nat.not_lt

theorem entryOf_budgeted (h : (s.budgeted limit reserve).entryOf j = some e) :
    s.entryOf j = some e ∧ (s.limited limit reserve).neverFits j e.least = false := of_entryOf_recheckFits h

/-- Settles O39: the queue checked again, and then the test for shedding on either side of the new available. -/
theorem setBudgetSetsTheBudgetAndTestsForShedding : Obligations.SetBudgetSetsTheBudgetAndTestsForShedding := by
  unfold Obligations.SetBudgetSetsTheBudgetAndTestsForShedding
  intro x y s hd hi
  rw [commands_setBudget.exec_idle hd hi]
  refine ⟨fun h => congrArg Host.Outcome.next (setBudget_badArg h),
    fun h hf => congrArg Host.Outcome.next (setBudget_floorConflict h hf), fun h hf => ?_⟩
  rw [setBudget_taken h hf, applyBudget_eq]
  have hd := denials_budgeted (s := s) (limit := x.toNat) (reserve := y.toNat)
  have hentries := fun j e => entryOf_budgeted (s := s) (limit := x.toNat) (reserve := y.toNat) (j := j) (e := e)
  have hstays : ∀ j e, s.entryOf j = some e → (s.limited x.toNat y.toNat).neverFits j e.least = false →
      (s.budgeted x.toNat y.toNat).entryOf j = some e := fun j e => entryOf_recheckFits_of_fits (s := s.limited x.toNat y.toNat)
  have hempty : s.alloc.queue = [] → s.budgeted x.toNat y.toNat = s.limited x.toNat y.toNat :=
    recheckFits_of_empty (s := s.limited x.toNat y.toNat)
  have havail : (s.budgeted x.toNat y.toNat).available = x.toNat - y.toNat := hd.funds.available
  have hcommitted : (s.budgeted x.toNat y.toNat).alloc.committed = s.alloc.committed := hd.committed
  generalize s.budgeted x.toNat y.toNat = v at *
  by_cases hover : x.toNat - y.toNat < s.alloc.committed
  · obtain ⟨hhost, hraised, hstate, hreclaim, hentry, hnotices⟩ := testShedding_shed (s := v) (by omega)
    obtain ⟨h1, h2, h3, h4, h5⟩ := hd.host.trans hhost
    refine ⟨_, rfl, h2, h1, h3, h4, h5, hraised.trans hd.raised, fun hr => by rw [decide_eq_true hr]; exact Bool.or_true _,
      fun j e he => ?_, fun hle => absurd hover (Nat.not_lt.2 hle), fun _ => ⟨hstate, hreclaim, fun hq hr => ?_⟩⟩
    · rcases hentry j e he with he | ⟨hleast, hfits⟩
      · exact fits_limited.1 (hentries j e he).2
      · rw [hleast]
        exact fits_limited.1 ((neverFits_congr hd.host.2.1 hd.sess j 1).symm.trans hfits)
    · have hrv : v.alloc.reclaim = none := by rw [hempty hq]; exact hr
      have hkept := hnotices hrv
      rw [hcommitted, havail, hd.state, hempty hq] at hkept
      rw [hempty hq]
      refine Eq.mp (congrArg (· <+: _) ?_) hkept
      exact apply_ite NoticeQueue.records _ _ _
  · obtain ⟨honly, hfunds, hpower, hmon, hqueue, hwithin, hends⟩ := testShedding_unshed (s := v) (by omega)
    obtain ⟨h1, h2, h3, h4, h5⟩ := hd.host.trans honly.host
    have hentryOf : ∀ j, v.testShedding.entryOf j = v.entryOf j := fun j => entryOf_eq_of_queue hqueue
    refine ⟨_, rfl, h2, h1, h3, h4, h5, honly.raised.trans hd.raised, fun hr => by rw [decide_eq_true hr]; exact Bool.or_true _,
      fun j e he => fits_limited.1 (hentries j e ((hentryOf j).symm.trans he)).2, fun _ => ⟨honly.state.trans hd.state,
        hfunds.committed.trans hd.committed, hfunds.leases.trans hd.leases, hfunds.sess.trans hd.sess, hpower.trans hd.power,
        hmon.trans hd.mon, fun hr he => ?_, fun hr => ?_, fun j e he => (hentries j e ((hentryOf j).symm.trans he)).1,
        fun j e he hfits => (hentryOf j).trans (hstays j e he (fits_limited.2 hfits))⟩, fun hlt => absurd hlt hover⟩
    · rcases hends with hend | hend
      · rw [hend] at hr ⊢
        exact (hd.earmarkLaw he).of_none hr
      · rw [hend]
        exact earmark_abandonReclaim (hd.earmarkLaw he)
    · have := hwithin hr
      rw [havail, ← hfunds.committed] at this
      exact this

end Sys2Proof.Machine
end

section
/-! PROOFS. A policy record made live: class and rank copied to entry and ramp record, and the queue checked again (R25, R28, R63, R117, R161). -/

namespace Sys2Proof.Machine

variable {s t u : State} {j k : Slot} {e : Entry} {r old : PolicyRecord} {n : Nat}

/-! ### The entry's key -/

/-- The records differ in the key that an entry carries. -/
abbrev PolicyRecord.Rekeys (r old : PolicyRecord) : Prop := r.cls ≠ old.cls ∨ r.rank ≠ old.rank

/-- The entry of a slot whose record has become `r` from `old` (R25). -/
def PolicyRecord.keyed (r old : PolicyRecord) (e : Entry) : Entry :=
  if r.Rekeys old then { e with cls := r.cls, rank := r.rank } else e

theorem PolicyRecord.keyed_of_rekeys (h : r.Rekeys old) : r.keyed old e = { e with cls := r.cls, rank := r.rank } := if_pos h

theorem PolicyRecord.keyed_of_same (h : ¬ r.Rekeys old) : r.keyed old e = e := if_neg h

theorem PolicyRecord.keyed_least : (r.keyed old e).least = e.least := by
  unfold PolicyRecord.keyed; split <;> rfl

theorem bne_eq_decide_ne (j k : Slot) : (j != k) = decide (j ≠ k) := by
  by_cases h : j = k <;> simp [h]

/-- The entry of the slot leaves its place for the one a new join would take; no other moves (R25). -/
theorem rekeyEntry_parts (he : s.entryOf k = some e) :
    (s.rekeyEntry k).entryOf k = some { e with cls := (s.policyOf k).cls, rank := (s.policyOf k).rank } ∧
    (∀ j, j ≠ k → (s.rekeyEntry k).entryOf j = s.entryOf j) ∧
    ∃ ahead behind, s.alloc.queue.filter (fun x => decide (x.slot ≠ k)) = ahead ++ behind ∧
      (∀ x ∈ behind, x.keyGe { e with cls := (s.policyOf k).cls, rank := (s.policyOf k).rank } = false) ∧
      (∀ x, ahead.getLast? = some x → x.keyGe { e with cls := (s.policyOf k).cls, rank := (s.policyOf k).rank } = true) ∧
      (s.rekeyEntry k).alloc.queue = ahead ++ { e with cls := (s.policyOf k).cls, rank := (s.policyOf k).rank } :: behind := by
  have heq : s.rekeyEntry k =
      ((s.unqueue k).joinEntry { e with cls := (s.policyOf k).cls, rank := (s.policyOf k).rank }).wantPass true := by
    unfold State.rekeyEntry; rw [he]
  have hslot : e.slot = k := slot_of_entryOf he
  generalize hnew : ({ e with cls := (s.policyOf k).cls, rank := (s.policyOf k).rank } : Entry) = new at *
  have hnewslot : new.slot = k := by rw [← hnew]; exact hslot
  have hjoin : ∀ j, (s.rekeyEntry k).entryOf j = if j = k then some new else (s.unqueue k).entryOf j := fun j => by
    rw [heq, State.entryOf_wantPass, entryOf_joinEntry (by rw [hnewslot]; exact entryOf_unqueue_self), hnewslot]
  refine ⟨(hjoin k).trans (if_pos rfl), fun j hj => ((hjoin j).trans (if_neg hj)).trans (entryOf_unqueue_ne hj), ?_⟩
  obtain ⟨ahead, behind, hq, hins, hbehind, hlast⟩ := insertEntry_split new (s.unqueue k).alloc.queue
  have hfilter : (fun x : Entry => decide (x.slot ≠ k)) = fun x => x.slot != k := funext fun x => (bne_eq_decide_ne x.slot k).symm
  refine ⟨ahead, behind, by rw [hfilter]; exact hq, hbehind, hlast, ?_⟩
  rw [heq]
  exact hins

/-- Beside the Demand Queue and the pass mark nothing changes with the key. -/
theorem rekeyEntry_frame : ∃ q b, s.rekeyEntry k = { s with alloc := { s.alloc with queue := q, passDue := b } } := by
  unfold State.rekeyEntry
  split
  · exact ⟨s.alloc.queue, s.alloc.passDue, rfl⟩
  · exact ⟨_, _, rfl⟩

/-! ### The ramp record's class -/

/-- What a changed class `c` does to ramp record and Ramp Queue of slot `k` (R117, log entry 51). -/
def State.Reclassed (s t : State) (k : Slot) (c : PowerClass) : Prop :=
  ((s.rampOf k).state = .none → t.rampOf k = s.rampOf k ∧ t.power.queue = s.power.queue) ∧
  ((s.rampOf k).state = .backoff ∨ (s.rampOf k).state = .ramping →
    t.rampOf k = { s.rampOf k with cls := c } ∧ t.power.queue = s.power.queue) ∧
  ((s.rampOf k).state = .queued → t.rampOf k = { s.rampOf k with cls := c } ∧
    ∃ ahead behind, s.power.queue.filter (fun j => decide (j ≠ k)) = ahead ++ behind ∧
      t.power.queue = ahead ++ k :: behind ∧ (c = .deferrable → behind = []) ∧
      (c = .essential → (∀ j ∈ ahead, (s.rampOf j).cls = .essential) ∧
        ∀ j, behind.head? = some j → (s.rampOf j).cls = .deferrable))

theorem State.Reclassed.congr {c : PowerClass} (h : s.Reclassed t k c) (hp : u.power = t.power) : s.Reclassed u k c := by
  have hramp : u.rampOf k = t.rampOf k := congrArg (PerSlot.get · k) (congrArg PowerPath.slots hp)
  unfold State.Reclassed at h ⊢
  rw [hramp, hp]; exact h

theorem reclassed_reclassRamp : s.Reclassed (s.reclassRamp k) k (s.policyOf k).cls := by
  have hself : (s.modRamp k (fun r => { r with cls := (s.policyOf k).cls })).rampOf k =
      { s.rampOf k with cls := (s.policyOf k).cls } := by rw [State.rampOf_modRamp, if_pos rfl]
  refine ⟨fun h => ?_, fun h => ?_, fun h => ?_⟩
  · unfold State.reclassRamp; rw [h]; exact ⟨rfl, rfl⟩
  · rw [reclassRamp_waiting h]; exact ⟨hself, rfl⟩
  · have hfilter : (fun j : Slot => decide (j ≠ k)) = fun j => j != k := funext fun j => (bne_eq_decide_ne j k).symm
    obtain ⟨ahead, behind, hq, hins, hdef, hess⟩ := rampInsert_split
      (fun j => ((s.modRamp k (fun r => { r with cls := (s.policyOf k).cls })).rampOf j).cls) k (s.policyOf k).cls
      (s.power.queue.filter (fun j => j != k))
    have hother : ∀ j ∈ ahead ++ behind, (s.modRamp k (fun r => { r with cls := (s.policyOf k).cls })).rampOf j = s.rampOf j :=
      fun j hj => by
        rw [← hq] at hj
        rw [State.rampOf_modRamp, if_neg (by simpa using List.of_mem_filter hj)]
    have heq : s.reclassRamp k = { s.modRamp k (fun r => { r with cls := (s.policyOf k).cls }) with
        power := { (s.modRamp k (fun r => { r with cls := (s.policyOf k).cls })).power with queue := ahead ++ k :: behind } } := by
      rw [← hins]
      unfold State.reclassRamp
      rw [h]
      dsimp only
      rw [hself]
      rfl
    rw [heq]
    refine ⟨hself, ahead, behind, by rw [hfilter]; exact hq, rfl, hdef, fun hc => ⟨fun j hj => ?_, fun j hj => ?_⟩⟩
    · rw [← hother j (List.mem_append_left _ hj)]; exact (hess hc).1 j hj
    · rw [← hother j (List.mem_append_right _ (List.mem_of_mem_head? hj))]; exact (hess hc).2 j hj

/-- Beside the power path nothing changes with the ramp record's class, and there no other slot's record. -/
theorem reclassRamp_frame : ∃ p, s.reclassRamp k = { s with power := p } ∧ p.holder = s.power.holder ∧ p.hold = s.power.hold ∧
    ∀ j, j ≠ k → p.slots.get j = s.power.slots.get j := by
  have hother : ∀ j, j ≠ k → (s.modRamp k (fun r => { r with cls := (s.policyOf k).cls })).power.slots.get j = s.power.slots.get j :=
    fun j hj => (State.rampOf_modRamp ..).trans (if_neg hj)
  unfold State.reclassRamp
  dsimp only
  split
  · exact ⟨_, rfl, rfl, rfl, hother⟩
  · exact ⟨_, rfl, rfl, rfl, hother⟩
  · exact ⟨_, rfl, rfl, rfl, hother⟩
  · exact ⟨s.power, rfl, rfl, rfl, fun _ _ => rfl⟩

/-! ### The reclaim of a beneficiary made DEFERRABLE -/

theorem isBeneficiary_of_none (h : s.alloc.reclaim = none) : s.isBeneficiary k = false := by
  unfold State.isBeneficiary; rw [h]

theorem abandonDeferrable_of_not (h : ¬ (s.isBeneficiary k = true ∧ (s.policyOf k).cls = .deferrable)) :
    s.abandonDeferrable k = s := if_neg h

/-- Beside reclaim, earmark, pass mark and notices nothing changes with the end of a reclaim. -/
theorem abandonDeferrable_frame : ∃ a b p q, s.abandonDeferrable k =
    { s with alloc := { s.alloc with reclaim := a, earmark := b, passDue := p }, notices := q } := by
  unfold State.abandonDeferrable State.abandonReclaim State.endReclaim
  split
  · split
    · exact ⟨_, _, _, _, rfl⟩
    · exact ⟨_, _, _, _, rfl⟩
  · exact ⟨_, _, _, _, rfl⟩

/-! ### The record live, with its key copied -/

/-- The record `r` is live in `t`, and its key has been copied (R4, R25, R63, R117, R161). -/
structure State.Keyed (s t : State) (k : Slot) (r : PolicyRecord) : Prop where
  cmd : t.cmd = { s.cmd with policy := s.cmd.policy.set k r }
  blocks : t.host = s.host ∧ t.store = s.store ∧ t.present = s.present ∧ t.pending = s.pending ∧ t.raised = s.raised
  sess : t.sess = s.sess
  line : t.line = s.line
  mon : t.mon = s.mon
  leases : t.alloc.leases = s.alloc.leases
  committed : t.alloc.committed = s.alloc.committed + max r.floorTerm (Lease.term (s.leaseOf k)) - s.commitment k
  entry : t.entryOf k = (s.entryOf k).map (r.keyed (s.policyOf k))
  others : ∀ j, j ≠ k → t.entryOf j = s.entryOf j ∧ t.rampOf j = s.rampOf j
  queue : ¬ r.Rekeys (s.policyOf k) ∨ s.entryOf k = none → t.alloc.queue = s.alloc.queue
  moved : ∀ e, r.Rekeys (s.policyOf k) → s.entryOf k = some e → ∃ ahead behind,
    s.alloc.queue.filter (fun x => decide (x.slot ≠ k)) = ahead ++ behind ∧
    (∀ x ∈ behind, x.keyGe (r.keyed (s.policyOf k) e) = false) ∧
    (∀ x, ahead.getLast? = some x → x.keyGe (r.keyed (s.policyOf k) e) = true) ∧
    t.alloc.queue = ahead ++ r.keyed (s.policyOf k) e :: behind
  reclaim : s.alloc.reclaim = none → s.ReclaimSame t ∧ t.notices = s.notices
  abandoned : r.cls = .deferrable → (s.policyOf k).cls = .essential → s.isBeneficiary k = true →
    t.alloc.reclaim = none ∧ t.alloc.earmark = 0
  holder : t.power.holder = s.power.holder
  sameClass : r.cls = (s.policyOf k).cls → t.power = s.power
  newClass : r.cls ≠ (s.policyOf k).cls → s.Reclassed t k r.cls

/-- The record live, and the entry under its new key. -/
def State.rekeyed (k : Slot) (r : PolicyRecord) (s : State) : State :=
  if r.Rekeys (s.policyOf k) then (s.setPolicy k r).rekeyEntry k else s.setPolicy k r

theorem policyOf_setPolicy_self : (s.setPolicy k r).policyOf k = r := by rw [State.policyOf_setPolicy, if_pos rfl]

theorem applyKey_eq : (s.setPolicy k r).applyKey k (s.policyOf k) =
    if r.cls ≠ (s.policyOf k).cls then ((s.rekeyed k r).reclassRamp k).abandonDeferrable k else s.rekeyed k r := by
  unfold State.applyKey State.rekeyed
  dsimp only
  rw [policyOf_setPolicy_self]

theorem rekeyed_of_same (h : ¬ r.Rekeys (s.policyOf k) ∨ s.entryOf k = none) : s.rekeyed k r = s.setPolicy k r := by
  unfold State.rekeyed
  split
  · rename_i hr
    unfold State.rekeyEntry
    rw [State.entryOf_setPolicy, h.resolve_left (not_not.2 hr)]
  · rfl

/-- Beside policy, committed, Demand Queue and pass mark nothing has changed. -/
theorem rekeyed_frame : ∃ q b, s.rekeyed k r =
    { s.setPolicy k r with alloc := { (s.setPolicy k r).alloc with queue := q, passDue := b } } := by
  unfold State.rekeyed
  split
  · exact rekeyEntry_frame
  · exact ⟨_, _, rfl⟩

theorem rekeyed_entries : (s.rekeyed k r).entryOf k = (s.entryOf k).map (r.keyed (s.policyOf k)) ∧
    (∀ j, j ≠ k → (s.rekeyed k r).entryOf j = s.entryOf j) ∧
    ∀ e, r.Rekeys (s.policyOf k) → s.entryOf k = some e → ∃ ahead behind,
      s.alloc.queue.filter (fun x => decide (x.slot ≠ k)) = ahead ++ behind ∧
      (∀ x ∈ behind, x.keyGe (r.keyed (s.policyOf k) e) = false) ∧
      (∀ x, ahead.getLast? = some x → x.keyGe (r.keyed (s.policyOf k) e) = true) ∧
      (s.rekeyed k r).alloc.queue = ahead ++ r.keyed (s.policyOf k) e :: behind := by
  by_cases h : ¬ r.Rekeys (s.policyOf k) ∨ s.entryOf k = none
  · rw [rekeyed_of_same h]
    refine ⟨?_, fun _ _ => rfl, fun e hr he => ?_⟩
    · rw [State.entryOf_setPolicy]
      cases he : s.entryOf k with
      | none => rfl
      | some e => rw [Option.map_some, PolicyRecord.keyed_of_same (h.resolve_right (by rw [he]; nofun))]
    · rcases h with h | h
      · exact absurd hr h
      · rw [h] at he; cases he
  · rw [not_or, not_not] at h
    obtain ⟨hr, hn⟩ := h
    obtain ⟨e, he⟩ := Option.ne_none_iff_exists'.1 hn
    have heq : s.rekeyed k r = (s.setPolicy k r).rekeyEntry k := if_pos hr
    obtain ⟨hself, hothers, hmoved⟩ := rekeyEntry_parts (s := s.setPolicy k r) (e := e) he
    rw [policyOf_setPolicy_self] at hself hmoved
    rw [heq]
    refine ⟨?_, hothers, fun e' _ he' => ?_⟩
    · rw [hself, he, Option.map_some, PolicyRecord.keyed_of_rekeys hr]
    · rw [he] at he'; cases he'
      rw [PolicyRecord.keyed_of_rekeys hr]
      exact hmoved

/-- Settling class and rank of a changed record, block by block. -/
theorem keyed_applyKey : s.Keyed ((s.setPolicy k r).applyKey k (s.policyOf k)) k r := by
  obtain ⟨q, b, hframe⟩ := rekeyed_frame (s := s) (k := k) (r := r)
  obtain ⟨hself, hothers, hmoved⟩ := rekeyed_entries (s := s) (k := k) (r := r)
  have hqueue : ¬ r.Rekeys (s.policyOf k) ∨ s.entryOf k = none → (s.rekeyed k r).alloc.queue = s.alloc.queue := fun h => by
    rw [rekeyed_of_same h]; rfl
  have hpol : (s.rekeyed k r).policyOf k = r := by rw [hframe]; exact policyOf_setPolicy_self
  have hben : (s.rekeyed k r).isBeneficiary k = s.isBeneficiary k := isBeneficiary_congr (by rw [hframe]; rfl)
  rw [applyKey_eq]
  by_cases hc : r.cls = (s.policyOf k).cls
  · rw [if_neg (not_not.2 hc)]
    generalize s.rekeyed k r = v at *
    subst hframe
    exact {
      cmd := rfl
      blocks := ⟨rfl, rfl, rfl, rfl, rfl⟩
      sess := rfl
      line := rfl
      mon := rfl
      leases := rfl
      committed := committed_setPolicy
      entry := hself
      others := fun j hj => ⟨hothers j hj, rfl⟩
      queue := hqueue
      moved := hmoved
      reclaim := fun _ => ⟨⟨rfl, rfl⟩, rfl⟩
      abandoned := fun h1 h2 => by rw [hc, h2] at h1; cases h1
      holder := rfl
      sameClass := fun _ => rfl
      newClass := fun h => absurd hc h }
  · rw [if_pos hc]
    have hreclassed := reclassed_reclassRamp (s := s.rekeyed k r) (k := k)
    obtain ⟨p, hp, hholder, hhold, hramps⟩ := reclassRamp_frame (s := s.rekeyed k r) (k := k)
    rw [hpol] at hreclassed
    have hpol' : ((s.rekeyed k r).reclassRamp k).policyOf k = r := by rw [hp]; exact hpol
    have hben' : ((s.rekeyed k r).reclassRamp k).isBeneficiary k = s.isBeneficiary k := by rw [hp]; exact hben
    obtain ⟨x, y, z, w, ha⟩ := abandonDeferrable_frame (s := (s.rekeyed k r).reclassRamp k) (k := k)
    have hstands : s.isBeneficiary k = false →
        ((s.rekeyed k r).reclassRamp k).abandonDeferrable k = (s.rekeyed k r).reclassRamp k := fun h =>
      abandonDeferrable_of_not fun hx => by rw [hben', h] at hx; exact absurd hx.1 Bool.false_ne_true
    have hgone : r.cls = .deferrable → s.isBeneficiary k = true →
        (((s.rekeyed k r).reclassRamp k).abandonDeferrable k).alloc.reclaim = none ∧
        (((s.rekeyed k r).reclassRamp k).abandonDeferrable k).alloc.earmark = 0 := fun h1 h2 => by
      have heq : ((s.rekeyed k r).reclassRamp k).abandonDeferrable k = ((s.rekeyed k r).reclassRamp k).abandonReclaim :=
        if_pos ⟨hben'.trans h2, by rw [hpol']; exact h1⟩
      rw [heq, abandonReclaim_of_beneficiary (hben'.trans h2)]
      exact ⟨rfl, rfl⟩
    have hsame : s.alloc.reclaim = none → (((s.rekeyed k r).reclassRamp k).abandonDeferrable k).alloc.reclaim = s.alloc.reclaim ∧
        (((s.rekeyed k r).reclassRamp k).abandonDeferrable k).alloc.earmark = s.alloc.earmark ∧
        (((s.rekeyed k r).reclassRamp k).abandonDeferrable k).notices = s.notices := fun h => by
      rw [hstands (isBeneficiary_of_none h), hp, hframe]
      exact ⟨rfl, rfl, rfl⟩
    have hclasses : s.Reclassed (((s.rekeyed k r).reclassRamp k).abandonDeferrable k) k r.cls := by
      refine State.Reclassed.congr (t := (s.rekeyed k r).reclassRamp k) ?_ (by rw [ha])
      rw [hframe] at hreclassed ⊢
      exact hreclassed
    generalize ((s.rekeyed k r).reclassRamp k).abandonDeferrable k = v at *
    have hcore : v.cmd = (s.rekeyed k r).cmd ∧ v.alloc.leases = (s.rekeyed k r).alloc.leases ∧
        v.alloc.committed = (s.rekeyed k r).alloc.committed ∧ v.alloc.queue = (s.rekeyed k r).alloc.queue := by
      rw [ha, hp]; exact ⟨rfl, rfl, rfl, rfl⟩
    obtain ⟨hcmd, hleases, hcommitted, hq⟩ := hcore
    have hentry : ∀ j, v.entryOf j = (s.rekeyed k r).entryOf j := fun j => entryOf_eq_of_queue hq
    have hrest : (v.host = s.host ∧ v.store = s.store ∧ v.present = s.present ∧ v.pending = s.pending ∧ v.raised = s.raised) ∧
        v.sess = s.sess ∧ v.line = s.line ∧ v.mon = s.mon := by
      rw [ha, hp, hframe]; exact ⟨⟨rfl, rfl, rfl, rfl, rfl⟩, rfl, rfl, rfl⟩
    obtain ⟨hblocks, hsess, hline, hmon⟩ := hrest
    have hpower : v.power = p := by rw [ha, hp]
    exact {
      cmd := hcmd.trans (by rw [hframe]; rfl)
      blocks := hblocks
      sess := hsess
      line := hline
      mon := hmon
      leases := hleases.trans (by rw [hframe]; rfl)
      committed := hcommitted.trans (by rw [hframe]; exact committed_setPolicy)
      entry := (hentry k).trans hself
      others := fun j hj => ⟨(hentry j).trans (hothers j hj),
        (congrArg (PerSlot.get · j) (congrArg PowerPath.slots hpower)).trans ((hramps j hj).trans (by rw [hframe]; rfl))⟩
      queue := fun h => hq.trans (hqueue h)
      moved := fun e hr he => by rw [hq]; exact hmoved e hr he
      reclaim := fun h => by
        obtain ⟨h1, h2, h3⟩ := hsame h
        exact ⟨⟨h1, h2⟩, h3⟩
      abandoned := fun h1 _ h2 => hgone h1 h2
      holder := (congrArg PowerPath.holder hpower).trans (hholder.trans (by rw [hframe]; rfl))
      sameClass := fun h => absurd h hc
      newClass := fun _ => hclasses }

end Sys2Proof.Machine
end

section
/-! PROOFS. What follows a changed policy record: the recall to the cap, and the change of enable (R28, R46, R49, R90, R161). -/

namespace Sys2Proof.Machine

variable {s t m v : State} {j k : Slot} {e : Entry} {l : Lease} {r old : PolicyRecord} {n tier : Nat} {o : RecallOrigin}

/-! ### The checks after the key -/

/-- With its checks made again the queue holds the entries that pass them, and no others have left (R28). -/
theorem applyRecheck_spec : s.Denials (s.applyRecheck k) ∧
    (∀ j e, (s.applyRecheck k).entryOf j = some e →
      s.entryOf j = some e ∧ s.neverFits j e.least = false ∧ (j = k → s.overCap k e.least = false)) ∧
    ∀ j e, s.entryOf j = some e → s.neverFits j e.least = false → (j = k → s.overCap k e.least = false) →
      (s.applyRecheck k).entryOf j = some e := by
  have hcap : s.Denials (s.recheckSlot State.overCap .overCap k) := denials_recheckSlot
  have hfits := fun j n => neverFits_congr hcap.host.2.1 hcap.sess j n
  refine ⟨hcap.trans denials_recheckFits, fun j e he => ?_, fun j e he hf hc => ?_⟩
  · obtain ⟨he, hf⟩ := of_entryOf_recheckFits he
    refine ⟨hcap.thinned.of_entryOf he, (hfits j _).symm.trans hf, fun hj => ?_⟩
    subst hj
    rw [entryOf_recheckSlot, Option.filter_eq_some_iff] at he
    simpa using he.2
  · refine entryOf_recheckFits_of_fits ?_ ((hfits j _).trans hf)
    by_cases hj : j = k
    · subst hj
      rw [entryOf_recheckSlot, he, Option.filter_some, hc rfl]; rfl
    · rw [entryOf_recheckSlot_ne hj, he]

theorem applyRecheck_of_empty (h : s.alloc.queue = []) : s.applyRecheck k = s := by
  have he : s.recheckSlot State.overCap .overCap k = s := recheckSlot_of_good fun e he => by
    unfold State.entryOf at he; rw [h] at he; cases he
  unfold State.applyRecheck
  rw [he, recheckFits_of_empty h]

/-! ### The tier of the cap -/

/-- The highest tier within the cap, or 0 (R46). -/
theorem capTier_eq (hn : tier ≤ s.tiersOf k) (hd : s.drawOf k tier ≤ (s.policyOf k).cap)
    (hmax : ∀ t, tier < t → t ≤ s.tiersOf k → (s.policyOf k).cap < s.drawOf k t) : s.capTier k = tier := by
  unfold State.capTier
  refine Nat.le_antisymm ?_ ?_
  · by_contra hlt
    obtain ⟨hok, hle⟩ := highestTier_spec (fun t => decide (s.drawOf k t ≤ (s.policyOf k).cap)) (s.tiersOf k) (by omega)
    exact absurd (of_decide_eq_true hok) (Nat.not_le.2 (hmax _ (by omega) hle))
  · by_cases h0 : tier = 0
    · omega
    · exact le_highestTier (decide_eq_true hd) (by omega) hn

theorem applyCap_of_over (h : (s.policyOf k).cap < Lease.term (s.leaseOf k)) : s.applyCap k = s.recall k (s.capTier k) .policy := if_pos h

theorem applyCap_of_within (h : Lease.term (s.leaseOf k) ≤ (s.policyOf k).cap) : s.applyCap k = s := if_neg (Nat.not_lt.2 h)

theorem onlyAt_applyCap : State.OnlyAt k s (s.applyCap k) := by
  unfold State.applyCap; split
  · exact onlyAt_recall
  · exact .refl s k

theorem thinned_applyCap : s.Thinned (s.applyCap k) := by
  unfold State.applyCap; split
  · exact thinned_recall
  · exact .refl s

/-- A recall reaches no slot whose session is neither in ON nor in a ramp (R46). -/
theorem recall_of_unleased (hon : (s.sessOf k).state ≠ .on) (hwait : (s.sessOf k).state ≠ .rampWait)
    (hramp : (s.sessOf k).state ≠ .ramping) : s.recall k n o = s := by
  rcases recall_cases (s := s) (k := k) (n := n) (o := o) with ⟨h, _⟩ | ⟨_, h⟩ | ⟨_, _, h, _⟩
  · exact h
  · exact absurd h hon
  · rcases h with h | h
    · exact absurd h hwait
    · exact absurd h hramp

theorem applyCap_of_unleased (hon : (s.sessOf k).state ≠ .on) (hwait : (s.sessOf k).state ≠ .rampWait)
    (hramp : (s.sessOf k).state ≠ .ramping) : s.applyCap k = s := by
  unfold State.applyCap
  rw [recall_of_unleased hon hwait hramp, ite_self]

/-- A recall finds nothing without a lease (R46). -/
theorem recall_of_no_lease (hl : s.leaseOf k = none) : s.recall k n o = s := by
  have hcancel : s.cancelRaise k = s := by unfold State.cancelRaise; rw [hl]
  rcases recall_cases (s := s) (k := k) (n := n) (o := o) with ⟨h, _⟩ | ⟨h, _⟩ | ⟨_, hn, _⟩
  · exact h
  · rw [h, hcancel]; unfold State.recallOn; rw [hl]
  · unfold State.grantedTier at hn; rw [hl] at hn; exact absurd hn (Nat.not_lt_zero n)

/-- Without a ramp a recall leaves session and entries. -/
theorem recall_of_no_ramp (hwait : (s.sessOf k).state ≠ .rampWait) (hramp : (s.sessOf k).state ≠ .ramping) :
    (s.recall k n o).sess = s.sess ∧ (s.recall k n o).entryOf k = s.entryOf k := by
  by_cases hon : (s.sessOf k).state = .on
  · obtain ⟨_, hsess, _, _, hentry⟩ := recall_on_frame (n := n) (o := o) hon
    exact ⟨hsess, hentry⟩
  · rw [recall_of_unleased hon hwait hramp]; exact ⟨rfl, rfl⟩

/-- After a recall the slot has its descriptor, or no entry. -/
theorem desc_recall : ((s.recall k n o).sessOf k).desc = (s.sessOf k).desc ∨ (s.recall k n o).entryOf k = none := by
  by_cases hwait : (s.sessOf k).state = .rampWait ∨ (s.sessOf k).state = .ramping
  · rcases recall_cases (s := s) (k := k) (n := n) (o := o) with ⟨h, _⟩ | ⟨_, h⟩ | ⟨h, _⟩
    · rw [h]; exact .inl rfl
    · rcases hwait with hs | hs <;> rw [hs] at h <;> cases h
    · obtain ⟨hsess, _⟩ := dropLease_keeps (s := s) (k := k)
      have hsessOf : ((s.dropLease k).post .cut (some k) o.reason (s.grantedTier k)).sessOf k = s.sessOf k :=
        congrArg (PerSlot.get · k) hsess
      rw [h]
      unfold State.cutLease
      rcases desc_settle (s := (s.dropLease k).post .cut (some k) o.reason (s.grantedTier k)) (k := k) with hd | ⟨he, _⟩
      · rw [hd, hsessOf]; exact .inl rfl
      · exact .inr he
  · rw [not_or] at hwait
    obtain ⟨hsess, _⟩ := recall_of_no_ramp (n := n) (o := o) hwait.1 hwait.2
    exact .inl (congrArg Session.desc (congrArg (PerSlot.get · k) hsess))

/-! ### The change of enable -/

theorem applyEnable_of_same (h : old.enabled = (s.policyOf k).enabled) : s.applyEnable k old = s := by
  unfold State.applyEnable
  rw [h]
  cases (s.policyOf k).enabled <;> rfl

theorem applyEnable_of_disabled (ho : old.enabled = true) (h : (s.policyOf k).enabled = false) : s.applyEnable k old = s.disable k := by
  unfold State.applyEnable; rw [ho, h]

theorem applyEnable_of_enabled (ho : old.enabled = false) (h : (s.policyOf k).enabled = true) : s.applyEnable k old = s.enable k := by
  unfold State.applyEnable; rw [ho, h]

theorem enable_cases : s.enable k = s ∨ s.enable k = s.enter k .listening ∧ (s.sessOf k).state = .barred := by
  unfold State.enable
  cases hs : (s.sessOf k).state <;> simp

/-- A slot is disabled, state by state (R90). -/
theorem disable_cases :
    (s.disable k = s ∧ ((s.sessOf k).state = .vacant ∨ (s.sessOf k).state = .barred ∨ (s.sessOf k).state = .faulted)) ∨
    (s.disable k = s.enter k .barred ∧ (s.sessOf k).state = .listening) ∨
    (s.disable k = (s.modSess k (fun x => { x with desc := none })).enter k .barred ∧ (s.sessOf k).state = .rejected) ∨
    (s.disable k = (s.denyEntry k .barred).endSession k .barred .barred ∧ (s.sessOf k).state = .standby) ∨
    (s.disable k = (s.denyEntry k .barred).recall k 0 .policy ∧
      ((s.sessOf k).state = .rampWait ∨ (s.sessOf k).state = .ramping ∨ (s.sessOf k).state = .on)) := by
  unfold State.disable
  cases hs : (s.sessOf k).state <;> simp

theorem onlyAt_disable : State.OnlyAt k s (s.disable k) := by
  rcases disable_cases (s := s) (k := k) with ⟨h, _⟩ | ⟨h, _⟩ | ⟨h, _⟩ | ⟨h, _⟩ | ⟨h, _⟩ <;> rw [h]
  · exact .refl s k
  · exact onlyAt_enter
  · exact onlyAt_modSess.trans onlyAt_enter
  · exact onlyAt_denyEntry.trans onlyAt_endSession
  · exact onlyAt_denyEntry.trans onlyAt_recall

theorem thinned_disable : s.Thinned (s.disable k) := by
  rcases disable_cases (s := s) (k := k) with ⟨h, _⟩ | ⟨h, _⟩ | ⟨h, _⟩ | ⟨h, _⟩ | ⟨h, _⟩ <;> rw [h]
  · exact .refl s
  · exact thinned_enter
  · exact .of_same rfl rfl rfl
  · exact thinned_denyEntry.trans thinned_endSession
  · exact thinned_denyEntry.trans thinned_recall

theorem onlyAt_applyEnable : State.OnlyAt k s (s.applyEnable k old) := by
  have henable : State.OnlyAt k s (s.enable k) := by
    rcases enable_cases (s := s) (k := k) with h | ⟨h, _⟩ <;> rw [h]
    · exact .refl s k
    · exact onlyAt_enter
  unfold State.applyEnable
  split
  · exact onlyAt_disable
  · exact henable
  · exact .refl s k
  · exact .refl s k

theorem thinned_enable : s.Thinned (s.enable k) := by
  rcases enable_cases (s := s) (k := k) with h | ⟨h, _⟩ <;> rw [h]
  · exact .refl s
  · exact thinned_enter

theorem thinned_applyEnable : s.Thinned (s.applyEnable k old) := by
  unfold State.applyEnable
  split
  · exact thinned_disable
  · exact thinned_enable
  · exact .refl s
  · exact .refl s

/-- After a change of enable the slot has its descriptor, or none, or no entry (R90). -/
theorem desc_applyEnable : ((s.applyEnable k old).sessOf k).desc = (s.sessOf k).desc ∨ (s.applyEnable k old).entryOf k = none ∨
    ((s.applyEnable k old).sessOf k).desc = none := by
  unfold State.applyEnable
  split
  · rcases disable_cases (s := s) (k := k) with ⟨h, _⟩ | ⟨h, _⟩ | ⟨h, _⟩ | ⟨h, _⟩ | ⟨h, _⟩ <;> rw [h]
    · exact .inl rfl
    · rw [sessOf_enter]; exact .inl rfl
    · rw [sessOf_enter, State.sessOf_modSess, if_pos rfl]; exact .inr (.inr rfl)
    · exact .inr (.inl entryOf_endSession)
    · exact .inr (.inl (thinned_recall.entryOf_none entryOf_denyEntry_self))
  · rcases enable_cases (s := s) (k := k) with h | ⟨h, _⟩ <;> rw [h]
    · exact .inl rfl
    · rw [sessOf_enter]; exact .inl rfl
  · exact .inl rfl
  · exact .inl rfl

/-- A session end leaves leases and committed (R88). -/
theorem endSession_funds {c : Reason} {st : SessState} : (s.endSession k c st).alloc.leases = s.alloc.leases ∧
    (s.endSession k c st).alloc.committed = s.alloc.committed := by
  obtain ⟨_, _, _, _, hleases, hcommitted⟩ := removeEntry_frame (s := s) (k := k)
  unfold State.endSession
  rw [State.post_alloc, State.Dropped.alloc_teardown]
  exact ⟨hleases, hcommitted⟩

/-- Without a lease a change of enable moves no budget quantity. -/
theorem applyEnable_of_no_lease (hl : s.leaseOf k = none) : (s.applyEnable k old).alloc.leases = s.alloc.leases ∧
    (s.applyEnable k old).alloc.committed = s.alloc.committed := by
  have hdeny := denials_denyEntry (s := s) (k := k) (r := .barred)
  unfold State.applyEnable
  split
  · rcases disable_cases (s := s) (k := k) with ⟨h, _⟩ | ⟨h, _⟩ | ⟨h, _⟩ | ⟨h, _⟩ | ⟨h, _⟩ <;> rw [h]
    · exact ⟨rfl, rfl⟩
    · exact ⟨rfl, rfl⟩
    · exact ⟨rfl, rfl⟩
    · obtain ⟨hleases, hcommitted⟩ := endSession_funds (s := s.denyEntry k .barred) (k := k) (c := .barred) (st := .barred)
      exact ⟨hleases.trans hdeny.leases, hcommitted.trans hdeny.committed⟩
    · rw [recall_of_no_lease ((hdeny.leaseOf k).trans hl)]
      exact ⟨hdeny.leases, hdeny.committed⟩
  · rcases enable_cases (s := s) (k := k) with h | ⟨h, _⟩ <;> rw [h]
    · exact ⟨rfl, rfl⟩
    · exact ⟨rfl, rfl⟩
  · exact ⟨rfl, rfl⟩
  · exact ⟨rfl, rfl⟩

/-- What a session ended BARRED leaves of the slot (R88, R90). -/
theorem endSession_barred (hl : s.leaseOf k = none) : ((s.endSession k .barred .barred).sessOf k).state = .barred ∧
    ((s.endSession k .barred .barred).sessOf k).lastEnd = .barred ∧ ((s.endSession k .barred .barred).sessOf k).desc = none ∧
    ((s.endSession k .barred .barred).rampOf k).aux = false := by
  obtain ⟨_, _, ⟨hstate, _, hend, _, hdesc, _⟩, _, haux, _⟩ := teardown_sessionEnded (v := s) (c := .barred) (st := .barred) hl rfl
    ⟨rfl, rfl, rfl⟩ rfl (by rw [commitment_of_no_lease hl]; exact (Nat.add_sub_cancel ..).symm)
  exact ⟨hstate, hend, hdesc, haux⟩

/-- A recall below the granted tier leaves a lease with a LOWER on it, its tier and draw as they were (R46, R48). -/
theorem leaseOf_recall_zero (hs : (s.sessOf k).state = .on) (hl : s.leaseOf k = some l) (hp : 1 ≤ l.tier) :
    ∃ left, (s.recall k 0 o).leaseOf k = some { l with trans := some (.lower 0 0 o left) } := by
  obtain ⟨n, left, hn, hlease, _⟩ := recall_stands (o := o) hs hl hp l hl
  have h0 : n = 0 := by
    split at hn
    · exact hn.1.trans (Nat.min_zero _)
    · exact hn.1
  have hdraw : s.drawOf k 0 = 0 := by
    unfold State.drawOf; split
    · rfl
    · rfl
  subst h0
  rw [hdraw] at hlease
  exact ⟨left, hlease⟩

/-- A recall in ON leaves the lease its tier and draw. -/
theorem leaseOf_recall_on (hs : (s.sessOf k).state = .on) (hl : s.leaseOf k = some l) :
    ∃ x, (s.recall k n o).leaseOf k = some { l with trans := x } := by
  by_cases hn : n < l.tier
  · obtain ⟨m, left, _, hlease, _⟩ := recall_stands (o := o) hs hl hn l hl
    exact ⟨_, hlease⟩
  · obtain ⟨hlease, _⟩ := recall_notIssued (o := o) hs hl (Nat.le_of_not_lt hn) l hl
    exact ⟨_, hlease⟩

end Sys2Proof.Machine
end

section
/-! PROOFS. APPLY_POLICY that changes the record: what it leaves of entries, lease, session, ramp record and reclaim (R25, R28, R46 to R49, R63, R90, R117, R161). -/

namespace Sys2Proof.Machine

variable {s t u m v : State} {j k : Slot} {e : Entry} {l : Lease} {r old : PolicyRecord} {n tier : Nat} {o : RecallOrigin}

/-! ### The record live and the queue checked -/

/-- The record `r` of slot `k` is live in `m` with its key copied, and in `v` the checks have been made again (R161 steps 1 to 3). -/
structure State.Live (s m v : State) (k : Slot) (r : PolicyRecord) : Prop where
  keyed : s.Keyed m k r
  denials : m.Denials v
  passed : ∀ j e, v.entryOf j = some e → m.entryOf j = some e ∧ m.neverFits j e.least = false ∧ (j = k → m.overCap k e.least = false)
  stays : ∀ j e, m.entryOf j = some e → m.neverFits j e.least = false → (j = k → m.overCap k e.least = false) → v.entryOf j = some e
  empty : m.alloc.queue = [] → v = m

theorem live_applyRecheck : s.Live ((s.setPolicy k r).applyKey k (s.policyOf k))
    (((s.setPolicy k r).applyKey k (s.policyOf k)).applyRecheck k) k r := by
  obtain ⟨hdenials, hpassed, hstays⟩ := applyRecheck_spec (s := (s.setPolicy k r).applyKey k (s.policyOf k)) (k := k)
  exact ⟨keyed_applyKey, hdenials, hpassed, hstays, applyRecheck_of_empty⟩

theorem applyRecord_eq : s.applyRecord k r =
    (((((s.setPolicy k r).applyKey k (s.policyOf k)).applyRecheck k).applyCap k).applyEnable k (s.policyOf k)).finish := rfl

theorem overCap_iff : s.overCap k n = false ↔ s.drawOf k n ≤ (s.policyOf k).cap := by
  unfold State.overCap
  rw [decide_eq_false_iff_not, Nat.not_lt]

/-- Only entries of slots that had one are left, and the queue without them is as it was. -/
theorem State.Thinned.queue_eq (h : s.Thinned t) : t.alloc.queue = s.alloc.queue.filter (fun x => (t.entryOf x.slot).isSome) := by
  obtain ⟨⟨p, hp⟩, _⟩ := h
  rw [hp]
  refine List.filter_congr fun x hx => ?_
  cases hpx : p x.slot with
  | true =>
    refine (Option.isSome_iff_ne_none.2 fun hn => ?_).symm
    unfold State.entryOf at hn
    rw [hp] at hn
    have := List.find?_eq_none.1 hn x (List.mem_filter.2 ⟨hx, hpx⟩)
    simp at this
  | false =>
    refine (Option.isSome_eq_false_iff.2 (Option.isNone_iff_eq_none.2 ?_)).symm
    unfold State.entryOf
    rw [hp]
    refine List.find?_eq_none.2 fun y hy hyx => ?_
    have hpy := List.of_mem_filter hy
    rw [eq_of_beq hyx, hpx] at hpy; cases hpy

namespace State.Live

theorem cmd (h : s.Live m v k r) : v.cmd = { s.cmd with policy := s.cmd.policy.set k r } := h.denials.host.2.1.trans h.keyed.cmd

theorem sess (h : s.Live m v k r) : v.sess = s.sess := h.denials.sess.trans h.keyed.sess

theorem sessOf (h : s.Live m v k r) (j : Slot) : v.sessOf j = s.sessOf j := congrArg (PerSlot.get · j) h.sess

theorem leases (h : s.Live m v k r) : v.alloc.leases = s.alloc.leases := h.denials.leases.trans h.keyed.leases

theorem leaseOf (h : s.Live m v k r) (j : Slot) : v.leaseOf j = s.leaseOf j := congrArg (PerSlot.get · j) h.leases

theorem drawOf (h : s.Live m v k r) (j : Slot) (n : Nat) : v.drawOf j n = s.drawOf j n := drawOf_congr (by rw [h.sessOf]) n

theorem tiersOf (h : s.Live m v k r) (j : Slot) : v.tiersOf j = s.tiersOf j := tiersOf_congr (by rw [h.sessOf])

theorem policyOf (h : s.Live m v k r) : v.policyOf k = r := by
  unfold State.policyOf; rw [h.cmd]; exact PerSlot.get_set_self _ _ _

theorem settings (h : s.Live m v k r) : v.settings = s.settings := by unfold State.settings; rw [h.cmd]

theorem power (h : s.Live m v k r) : v.power = m.power := h.denials.power

theorem rampOf_ne (h : s.Live m v k r) (hj : j ≠ k) : v.rampOf j = s.rampOf j :=
  (congrArg (PerSlot.get · j) (congrArg PowerPath.slots h.power)).trans (h.keyed.others j hj).2

theorem rampOf (h : s.Live m v k r) : v.rampOf k = m.rampOf k := congrArg (PerSlot.get · k) (congrArg PowerPath.slots h.power)

theorem holder (h : s.Live m v k r) : v.power.holder = s.power.holder := (congrArg PowerPath.holder h.power).trans h.keyed.holder

theorem mon (h : s.Live m v k r) : v.mon = s.mon := h.denials.mon.trans h.keyed.mon

theorem committed (h : s.Live m v k r) :
    v.alloc.committed = s.alloc.committed + max r.floorTerm (Lease.term (s.leaseOf k)) - s.commitment k :=
  h.denials.committed.trans h.keyed.committed

/-- An entry that stands is the slot's own, under its new key where it is of slot `k`. -/
theorem entryOf (h : s.Live m v k r) (he : v.entryOf j = some e) :
    ∃ e', s.entryOf j = some e' ∧ e = if j = k then r.keyed (s.policyOf k) e' else e' := by
  obtain ⟨he, _⟩ := h.passed j e he
  by_cases hj : j = k
  · subst hj
    rw [h.keyed.entry] at he
    obtain ⟨e', he', rfl⟩ := Option.map_eq_some_iff.1 he
    exact ⟨e', he', (if_pos rfl).symm⟩
  · rw [(h.keyed.others j hj).1] at he
    exact ⟨e, he, (if_neg hj).symm⟩

/-- Check 6 under the new record, in terms of any state under it. -/
theorem fits_iff (h : s.Live m v k r) (hc : u.cmd = v.cmd) : m.neverFits j n = false ↔
    max (u.floorOf j) (s.drawOf j n) + u.floorSum ≤ u.available + u.floorOf j := by
  have hcmd : u.cmd = m.cmd := hc.trans h.denials.host.2.1
  have hdraw : m.drawOf j n = s.drawOf j n := drawOf_congr (by unfold State.sessOf; rw [h.keyed.sess]) n
  have hsum : u.floorSum = m.floorSum := by unfold State.floorSum; rw [funext (floorOf_of_cmd hcmd)]
  unfold State.neverFits
  rw [decide_eq_false_iff_not, Nat.not_lt, hdraw, floorOf_of_cmd hcmd, hsum, available_of_cmd hcmd]

/-- Check 5 under the new record. -/
theorem within_iff (h : s.Live m v k r) : m.overCap k n = false ↔ s.drawOf k n ≤ r.cap := by
  have hdraw : m.drawOf k n = s.drawOf k n := drawOf_congr (by unfold State.sessOf; rw [h.keyed.sess]) n
  have hpol : m.policyOf k = r := by unfold State.policyOf; rw [h.keyed.cmd]; exact PerSlot.get_set_self _ _ _
  rw [overCap_iff, hdraw, hpol]

/-- The floors lie within available under the new record where the check of APPLY_POLICY says so (R2). -/
theorem floors (h : s.Live m v k r) (hf : s.FloorsFit k r) (hc : u.cmd = v.cmd) : u.floorSum ≤ u.available := by
  have hcmd : u.cmd = (s.setPolicy k r).cmd := hc.trans h.cmd
  have hsum : u.floorSum = (s.setPolicy k r).floorSum := by unfold State.floorSum; rw [funext (floorOf_of_cmd hcmd)]
  have hset := floorSum_setPolicy (s := s) (k := k) (r := r)
  have havail : u.available = s.available := available_of_cmd (s := s.setPolicy k r) hcmd
  unfold State.FloorsFit at hf
  omega

/-- Where neither entry nor reclaim stands, nothing is posted. -/
theorem notices (h : s.Live m v k r) (hq : s.alloc.queue = []) (hr : s.alloc.reclaim = none) :
    v.notices = s.notices ∧ v.entryOf k = none ∧ v.alloc.reclaim = none := by
  have hnone : s.entryOf k = none := by unfold State.entryOf; rw [hq]; rfl
  have hmq : m.alloc.queue = [] := (h.keyed.queue (.inr hnone)).trans hq
  obtain ⟨⟨hreclaim, _⟩, hnotices⟩ := h.keyed.reclaim hr
  rw [h.empty hmq]
  exact ⟨hnotices, by unfold State.entryOf; rw [hmq]; rfl, hreclaim.trans hr⟩

/-! ### The entries at the end -/

/-- Of a slot's entry after cap and enable: it stood before them, and its tiers have the draws that the checks were made with. -/
theorem drawn (h : s.Live m v k r) (hf : s.FloorsFit k r)
    (he : ((v.applyCap k).applyEnable k old).entryOf j = some e) : let u := (v.applyCap k).applyEnable k old
    max (u.floorOf j) (u.drawOf j e.least) + u.floorSum ≤ u.available + u.floorOf j ∧ (j = k → u.drawOf k e.least ≤ r.cap) := by
  intro u
  have honly : State.OnlyAt k v u := onlyAt_applyCap.trans onlyAt_applyEnable
  have hv : v.entryOf j = some e := (thinned_applyCap.trans thinned_applyEnable).of_entryOf he
  obtain ⟨_, hfits, hover⟩ := h.passed j e hv
  rw [h.fits_iff honly.cmd] at hfits
  by_cases hj : j = k
  · subst hj
    have hwithin := h.within_iff.1 (hover rfl)
    have hdesc : (u.sessOf j).desc = (s.sessOf j).desc ∨ (u.sessOf j).desc = none := by
      rcases desc_applyEnable (s := v.applyCap j) (k := j) (old := old) with hd | hd | hd
      · have hw : ((v.applyCap j).sessOf j).desc = (v.sessOf j).desc ∨ (v.applyCap j).entryOf j = none := by
          unfold State.applyCap; split
          · exact desc_recall
          · exact .inl rfl
        rcases hw with hw | hw
        · exact .inl ((hd.trans hw).trans (by rw [h.sessOf]))
        · rw [thinned_applyEnable.entryOf_none hw] at he; cases he
      · rw [hd] at he; cases he
      · exact .inr hd
    rcases hdesc with hd | hd
    · rw [drawOf_congr hd]
      exact ⟨hfits, fun _ => hwithin⟩
    · have hzero : u.drawOf j e.least = 0 := by unfold State.drawOf; rw [hd]
      have hfloors := h.floors hf honly.cmd
      rw [hzero, Nat.max_zero]
      exact ⟨by omega, fun _ => Nat.zero_le _⟩
  · obtain ⟨hsess, _⟩ := honly.others j hj
    rw [drawOf_congr (show (u.sessOf j).desc = (s.sessOf j).desc by rw [hsess, h.sessOf])]
    exact ⟨hfits, fun hk => absurd hk hj⟩

/-- An entry of another slot that passes check 6 stands (R28). -/
theorem stands_ne (h : s.Live m v k r) (honly : State.OnlyAt k v u) (hj : j ≠ k) (he : s.entryOf j = some e)
    (hfits : max (u.floorOf j) (s.drawOf j e.least) + u.floorSum ≤ u.available + u.floorOf j) : u.entryOf j = some e := by
  obtain ⟨_, _, _, _, _, hsame⟩ := honly.others j hj
  rw [hsame]
  exact h.stays j e ((h.keyed.others j hj).1.trans he) ((h.fits_iff honly.cmd).2 hfits) fun hk => absurd hk hj

/-- The slot's own entry stands where it passes its checks and neither a disable nor a drop takes it (R28, R90). -/
theorem stands_self (h : s.Live m v k r) (he : s.entryOf k = some e) (hno : ¬ ((s.policyOf k).enabled = true ∧ r.enabled = false))
    (hwait : (s.sessOf k).state ≠ .rampWait) (hramp : (s.sessOf k).state ≠ .ramping) (hcap : s.drawOf k e.least ≤ r.cap)
    (hfits : let u := (v.applyCap k).applyEnable k (s.policyOf k)
      max (u.floorOf k) (s.drawOf k e.least) + u.floorSum ≤ u.available + u.floorOf k) :
    ((v.applyCap k).applyEnable k (s.policyOf k)).entryOf k = some (r.keyed (s.policyOf k) e) := by
  have honly : State.OnlyAt k v ((v.applyCap k).applyEnable k (s.policyOf k)) := onlyAt_applyCap.trans onlyAt_applyEnable
  have hkeyed : m.entryOf k = some (r.keyed (s.policyOf k) e) := by rw [h.keyed.entry, he]; rfl
  have hstands := h.stays k _ hkeyed (by rw [PolicyRecord.keyed_least]; exact (h.fits_iff honly.cmd).2 hfits)
    fun _ => by rw [PolicyRecord.keyed_least]; exact h.within_iff.2 hcap
  have hafter : (v.applyCap k).entryOf k = v.entryOf k := by
    unfold State.applyCap; split
    · exact (recall_of_no_ramp (by rw [h.sessOf]; exact hwait) (by rw [h.sessOf]; exact hramp)).2
    · rfl
  have henable : ((v.applyCap k).applyEnable k (s.policyOf k)).entryOf k = (v.applyCap k).entryOf k := by
    have hpol : (v.applyCap k).policyOf k = r := by rw [onlyAt_applyCap.policyOf, h.policyOf]
    unfold State.applyEnable
    rw [hpol]
    split
    · rename_i ho hr; exact absurd ⟨ho, hr⟩ hno
    · rcases enable_cases (s := v.applyCap k) (k := k) with heq | ⟨heq, _⟩ <;> rw [heq]
      rfl
    · rfl
    · rfl
  rw [henable, hafter, hstands]

/-- The order of the queue: entries have left, and a rekeyed one has taken its new place (R25). -/
theorem queue (h : s.Live m v k r) (hu : v.Thinned u) :
    (¬ r.Rekeys (s.policyOf k) ∨ s.entryOf k = none → u.alloc.queue = s.alloc.queue.filter (fun x => (u.entryOf x.slot).isSome)) ∧
    ∀ e, r.Rekeys (s.policyOf k) → s.entryOf k = some e → ∃ ahead behind,
      s.alloc.queue.filter (fun x => decide (x.slot ≠ k)) = ahead ++ behind ∧
      (∀ x ∈ behind, x.keyGe (r.keyed (s.policyOf k) e) = false) ∧
      (∀ x, ahead.getLast? = some x → x.keyGe (r.keyed (s.policyOf k) e) = true) ∧
      u.alloc.queue = (ahead ++ r.keyed (s.policyOf k) e :: behind).filter (fun x => (u.entryOf x.slot).isSome) := by
  have hqueue := (h.denials.thinned.trans hu).queue_eq
  refine ⟨fun hno => by rw [hqueue, h.keyed.queue hno], fun e hr he => ?_⟩
  obtain ⟨ahead, behind, hfilter, hbehind, hlast, hm⟩ := h.keyed.moved e hr he
  exact ⟨ahead, behind, hfilter, hbehind, hlast, by rw [hqueue, hm]⟩

/-! ### Lease and commitment -/

/-- Without a lease the slot's commitment is its floor (R3, R12). -/
theorem of_no_lease (h : s.Live m v k r) (hl : s.leaseOf k = none) :
    ((v.applyCap k).applyEnable k old).leaseOf k = none ∧
    ((v.applyCap k).applyEnable k old).alloc.committed = s.alloc.committed + r.floorTerm - s.floorOf k := by
  have hterm : Lease.term (s.leaseOf k) = 0 := by rw [hl]; rfl
  have hsame : v.applyCap k = v := applyCap_of_within (by rw [h.leaseOf, hterm]; exact Nat.zero_le _)
  have hnone : v.leaseOf k = none := (h.leaseOf k).trans hl
  obtain ⟨hleases, hcommitted⟩ := applyEnable_of_no_lease (old := old) hnone
  rw [hsame]
  refine ⟨(congrArg (PerSlot.get · k) hleases).trans hnone, ?_⟩
  rw [hcommitted, h.committed, hterm, commitment_of_no_lease hl, Nat.max_zero]

/-- A lease within the cap stands with its session, and what a changed class does to ramp record and Ramp Queue stands too. -/
theorem of_within (h : s.Live m v k r) (hen : (s.policyOf k).enabled = r.enabled) (hle : Lease.term (s.leaseOf k) ≤ r.cap) :
    (v.applyCap k).applyEnable k (s.policyOf k) = v := by
  rw [applyCap_of_within (by rw [h.leaseOf, h.policyOf]; exact hle)]
  exact applyEnable_of_same (by rw [h.policyOf]; exact hen)

/-- Above the cap the lease is recalled to the highest tier within it (R46). -/
theorem of_over (h : s.Live m v k r) (hen : (s.policyOf k).enabled = r.enabled) (hover : r.cap < Lease.term (s.leaseOf k))
    (hn : tier ≤ s.tiersOf k) (hd : s.drawOf k tier ≤ r.cap) (hmax : ∀ t, tier < t → t ≤ s.tiersOf k → r.cap < s.drawOf k t) :
    (v.applyCap k).applyEnable k (s.policyOf k) = v.recall k tier .policy := by
  have htier : v.capTier k = tier := capTier_eq (by rw [h.tiersOf]; exact hn) (by rw [h.drawOf, h.policyOf]; exact hd)
    fun t h1 h2 => by rw [h.drawOf, h.policyOf]; exact hmax t h1 (by rw [← h.tiersOf]; exact h2)
  rw [applyCap_of_over (by rw [h.leaseOf, h.policyOf]; exact hover), htier]
  exact applyEnable_of_same (by rw [onlyAt_recall.policyOf, h.policyOf]; exact hen)

/-- A GRANT in the claim channel has come through the denials (R99). -/
theorem grant (h : s.Live m v k r) {b : Bool} (hg : (s.lineOf k).outClaim = some (.grant n b)) :
    (v.lineOf k).outClaim = some (.grant n b) :=
  h.denials.grant k n b (by unfold State.lineOf; rw [h.keyed.line]; exact hg)

/-- On a recall in ON a RAISE's GRANT gives way to DENY(CANCELLED) (R47). -/
theorem cancelled (h : s.Live m v k r) (hs : (s.sessOf k).state = .on) (hl : s.leaseOf k = some l) {t d : Nat} {g : EntryOrigin} {b : Bool}
    (hx : l.trans = some (.raise t d g)) (hg : (s.lineOf k).outClaim = some (.grant n b)) :
    ((v.recall k tier o).lineOf k).outClaim = some (.deny .cancelled) := by
  have hsv : (v.sessOf k).state = .on := by rw [h.sessOf]; exact hs
  have hlv := (h.leaseOf k).trans hl
  have hgv := h.grant hg
  by_cases hn : tier < l.tier
  · obtain ⟨_, _, _, _, _, _, hclaim, _⟩ := recall_stands (o := o) hsv hlv hn l hlv
    rw [hclaim, hx, hgv]
  · obtain ⟨_, _, _, hclaim, _⟩ := recall_notIssued (o := o) hsv hlv (Nat.le_of_not_lt hn) l hlv
    rw [hclaim, hx, hgv]

end State.Live

end Sys2Proof.Machine
end

section
/-! PROOFS. APPLY_POLICY that changes the record: the change of enable, and the statement as a whole (R49, R90, R161). -/

namespace Sys2Proof.Machine

variable {s t u m v : State} {j k : Slot} {e : Entry} {l : Lease} {r old : PolicyRecord} {n tier : Nat} {o : RecallOrigin}

/-! ### A lease cut off in a ramp -/

/-- A lease cut by a recall: the session's end on a disabled slot, STANDBY on an enabled one (R49, R53). -/
theorem cutLease_parts (hl : s.leaseOf k = some l) : let u := s.cutLease k o
    u.leaseOf k = none ∧ (u.rampOf k).state = .none ∧ (u.rampOf k).gate = false ∧ k ∉ u.power.queue ∧ u.power.holder ≠ some k ∧
    ((s.policyOf k).enabled = true → (u.sessOf k).state = .standby ∧ (u.sessOf k).admitFlag = (s.sessOf k).admitFlag) ∧
    ((s.policyOf k).enabled = false → (u.sessOf k).state = .barred ∧ (u.sessOf k).lastEnd = .barred ∧ u.entryOf k = none) ∧
    ((s.policyOf k).enabled = true → s.entryOf k = none → s.alloc.reclaim = none →
      u.notices = s.notices.take .cut (some k) o.reason false l.tier) := by
  intro u
  obtain ⟨⟨⟨hlease, _, hramp, _, hgate, _, _, hqueue, hholder, _⟩, _⟩, _, hstands, hended, hnotices⟩ := settles_cutLease (o := o) hl
  refine ⟨hlease, hramp, hgate, hqueue, hholder, fun hen => ?_, fun hen => ?_, fun hen he hr => ?_⟩
  · obtain ⟨hstate, hflag, _⟩ := hstands hen
    exact ⟨hstate, hflag⟩
  · obtain ⟨_, hentry, ⟨hstate, _, hend, _⟩, _⟩ := hended hen
    exact ⟨hstate, hend, hentry⟩
  · rw [hnotices hr (.inl he) (fun _ h => by cases h), if_pos hen]

namespace State.Live

/-! ### Enabled -/

/-- A BARRED slot enabled probes (R90). -/
theorem enabled (h : s.Live m v k r) (ho : (s.policyOf k).enabled = false) (hr : r.enabled = true) (hs : (s.sessOf k).state = .barred) :
    let u := (v.applyCap k).applyEnable k (s.policyOf k)
    (u.sessOf k).state = .listening ∧ (u.rampOf k).aux = true ∧ (u.lineOf k).poll = some s.settings.pollPeriod := by
  intro u
  have hsv : (v.sessOf k).state = .barred := by rw [h.sessOf]; exact hs
  have hsame : v.applyCap k = v := applyCap_of_unleased (by rw [hsv]; decide) (by rw [hsv]; decide) (by rw [hsv]; decide)
  have heq : u = v.enter k .listening := by
    show (v.applyCap k).applyEnable k (s.policyOf k) = _
    rw [hsame, applyEnable_of_enabled ho (by rw [h.policyOf]; exact hr)]
    unfold State.enable
    rw [hsv]
  rw [heq, sessOf_enter, rampOf_enter, lineOf_enter, h.settings]
  exact ⟨rfl, rfl, rfl⟩

/-! ### Disabled -/

section Disabled

variable (h : s.Live m v k r) (ho : (s.policyOf k).enabled = true) (hr : r.enabled = false)
include h ho hr

/-- A slot without a lease in ON or in a ramp is disabled from where the checks left it. -/
theorem disabled_eq (hon : (s.sessOf k).state ≠ .on) (hwait : (s.sessOf k).state ≠ .rampWait) (hramp : (s.sessOf k).state ≠ .ramping) :
    (v.applyCap k).applyEnable k (s.policyOf k) = v.disable k := by
  have hsame : v.applyCap k = v := applyCap_of_unleased (by rw [h.sessOf]; exact hon) (by rw [h.sessOf]; exact hwait)
    (by rw [h.sessOf]; exact hramp)
  rw [hsame, applyEnable_of_disabled ho (by rw [h.policyOf]; exact hr)]

theorem disabled_vacant (hs : (s.sessOf k).state = .vacant ∨ (s.sessOf k).state = .faulted) :
    ((v.applyCap k).applyEnable k (s.policyOf k)).sessOf k = s.sessOf k := by
  have hno : ∀ st : SessState, st ≠ .vacant → st ≠ .faulted → (s.sessOf k).state ≠ st := fun st h1 h2 hx => by
    rcases hs with hs | hs
    · exact h1 (hx.symm.trans hs)
    · exact h2 (hx.symm.trans hs)
  rw [h.disabled_eq ho hr (hno _ (by decide) (by decide)) (hno _ (by decide) (by decide)) (hno _ (by decide) (by decide))]
  unfold State.disable
  rw [h.sessOf]
  rcases hs with hs | hs <;> rw [hs] <;> exact h.sessOf k

theorem disabled_probing (hs : (s.sessOf k).state = .listening ∨ (s.sessOf k).state = .rejected) :
    let u := (v.applyCap k).applyEnable k (s.policyOf k)
    (u.sessOf k).state = .barred ∧ (u.lineOf k).outSession = none ∧ (u.rampOf k).aux = false := by
  intro u
  have hno : ∀ st : SessState, st ≠ .listening → st ≠ .rejected → (s.sessOf k).state ≠ st := fun st h1 h2 hx => by
    rcases hs with hs | hs
    · exact h1 (hx.symm.trans hs)
    · exact h2 (hx.symm.trans hs)
  have heq : u = v.disable k :=
    h.disabled_eq ho hr (hno _ (by decide) (by decide)) (hno _ (by decide) (by decide)) (hno _ (by decide) (by decide))
  rw [heq]
  unfold State.disable
  rw [h.sessOf]
  rcases hs with hs | hs <;> rw [hs] <;> dsimp only <;> rw [sessOf_enter, lineOf_enter, rampOf_enter] <;> exact ⟨rfl, rfl, rfl⟩

theorem disabled_standby (hs : (s.sessOf k).state = .standby) (hl : s.leaseOf k = none) :
    let u := (v.applyCap k).applyEnable k (s.policyOf k)
    (u.sessOf k).state = .barred ∧ (u.sessOf k).lastEnd = .barred ∧ (u.sessOf k).desc = none ∧ u.entryOf k = none ∧
      (u.rampOf k).aux = false := by
  intro u
  have heq : u = v.disable k := h.disabled_eq ho hr (by rw [hs]; decide) (by rw [hs]; decide) (by rw [hs]; decide)
  have hnone : (v.denyEntry k .barred).leaseOf k = none := (denials_denyEntry.leaseOf k).trans ((h.leaseOf k).trans hl)
  obtain ⟨hstate, hend, hdesc, haux⟩ := endSession_barred hnone
  rw [heq]
  unfold State.disable
  rw [h.sessOf, hs]
  exact ⟨hstate, hend, hdesc, entryOf_endSession, haux⟩

/-- In a ramp the lease goes at once, by the cap or by the disable (R49, R90). -/
theorem disabled_ramp (hs : (s.sessOf k).state = .rampWait ∨ (s.sessOf k).state = .ramping) (hl : s.leaseOf k = some l)
    (hp : 1 ≤ l.tier) : ∃ w, v.Denials w ∧ (v.applyCap k).applyEnable k (s.policyOf k) = w.cutLease k .policy := by
  have hsv : (v.sessOf k).state = .rampWait ∨ (v.sessOf k).state = .ramping := by rw [h.sessOf]; exact hs
  have hlv := (h.leaseOf k).trans hl
  have hpol : ∀ w : State, State.OnlyAt k v w → (w.policyOf k).enabled = false := fun w hw => by rw [hw.policyOf, h.policyOf]; exact hr
  by_cases hcut : v.applyCap k = v.cutLease k .policy
  · refine ⟨v, .refl v, ?_⟩
    obtain ⟨_, _, _, _, _, _, hbarred, _⟩ := cutLease_parts (o := .policy) hlv
    obtain ⟨hstate, _⟩ := hbarred (by rw [h.policyOf]; exact hr)
    rw [hcut, applyEnable_of_disabled ho (hpol _ onlyAt_cutLease)]
    unfold State.disable
    rw [hstate]
  · have hsame : v.applyCap k = v := by
      by_cases hover : (v.policyOf k).cap < Lease.term (v.leaseOf k)
      · rw [applyCap_of_over hover] at hcut ⊢
        by_cases hn : v.capTier k < v.grantedTier k
        · exact absurd (recall_of_ramp hsv (.inr rfl) hn) hcut
        · rcases recall_cases (s := v) (k := k) (n := v.capTier k) (o := .policy) with ⟨heq, _⟩ | ⟨_, hon⟩ | ⟨_, hlt, _⟩
          · exact heq
          · rcases hsv with hx | hx <;> rw [hx] at hon <;> cases hon
          · exact absurd hlt hn
      · exact applyCap_of_within (Nat.le_of_not_lt hover)
    have hdeny := denials_denyEntry (s := v) (k := k) (r := .barred)
    refine ⟨v.denyEntry k .barred, hdeny, ?_⟩
    rw [hsame, applyEnable_of_disabled ho (hpol v (.refl v k))]
    have hcutAfter : (v.denyEntry k .barred).recall k 0 .policy = (v.denyEntry k .barred).cutLease k .policy :=
      recall_of_ramp (by rw [hdeny.sessOf]; exact hsv) (.inr rfl)
        (by rw [grantedTier_of_lease ((hdeny.leaseOf k).trans hlv)]; exact hp)
    rw [← hcutAfter]
    unfold State.disable
    rcases hsv with hx | hx <;> rw [hx]

/-- In ON the entry is denied and the lease recalled to 0, on top of a recall to the cap (R48, R90). -/
theorem disabled_on (hs : (s.sessOf k).state = .on) (hl : s.leaseOf k = some l) (hp : 1 ≤ l.tier) :
    let u := (v.applyCap k).applyEnable k (s.policyOf k)
    u.entryOf k = none ∧ (u.sessOf k).state = .on ∧ ∃ left, u.leaseOf k = some { l with trans := some (.lower 0 0 .policy left) } := by
  intro u
  have hsv : (v.sessOf k).state = .on := by rw [h.sessOf]; exact hs
  have hlv := (h.leaseOf k).trans hl
  have hcap : ((v.applyCap k).sessOf k).state = .on ∧ ∃ x, (v.applyCap k).leaseOf k = some { l with trans := x } := by
    unfold State.applyCap; split
    · exact ⟨by rw [show (v.recall k _ .policy).sessOf k = v.sessOf k from congrArg (PerSlot.get · k) (sess_recall_of_on hsv)]
                exact hsv, leaseOf_recall_on hsv hlv⟩
    · exact ⟨hsv, l.trans, hlv⟩
  obtain ⟨hson, x, hlease⟩ := hcap
  have hdeny := denials_denyEntry (s := v.applyCap k) (k := k) (r := .barred)
  have hson' : (((v.applyCap k).denyEntry k .barred).sessOf k).state = .on := by rw [hdeny.sessOf]; exact hson
  have heq : u = ((v.applyCap k).denyEntry k .barred).recall k 0 .policy := by
    have hdis := applyEnable_of_disabled (s := v.applyCap k) ho (by rw [onlyAt_applyCap.policyOf, h.policyOf]; exact hr)
    show (v.applyCap k).applyEnable k (s.policyOf k) = _
    rw [hdis]
    unfold State.disable
    rw [hson]
  obtain ⟨left, hleft⟩ := leaseOf_recall_zero (o := .policy) hson' ((hdeny.leaseOf k).trans hlease) hp
  rw [heq]
  refine ⟨thinned_recall.entryOf_none entryOf_denyEntry_self, ?_, left, hleft⟩
  rw [show State.sessOf (State.recall k 0 .policy _) k = _ from congrArg (PerSlot.get · k) (sess_recall_of_on hson')]
  exact hson'

end Disabled

end State.Live

/-- Settles O38: the key is copied, the checks are made again, and cap and enable act on what is left. -/
theorem applyPolicyActsOnTheSlot : Obligations.ApplyPolicyActsOnTheSlot := by
  unfold Obligations.ApplyPolicyActsOnTheSlot
  intro b k s hd hi hb
  dsimp only
  rw [commandsSlot_applyPolicy.exec_slot hd hi hb]
  generalize hr : s.cmd.staging = r
  intro hrange hfits hrise hne
  have hok : s.applyCheck k r = .ok := applyCheck_passed (PolicyRecord.inRange_iff_fields.2 hrange) hfits hrise
  have hexec : s.applyPolicy k = (s.applyRecord k r).answered .ok := by
    subst hr
    exact applyPolicy_changed hok hne
  rw [hexec, applyRecord_eq]
  have h := live_applyRecheck (s := s) (k := k) (r := r)
  generalize (s.setPolicy k r).applyKey k (s.policyOf k) = m at h ⊢
  generalize m.applyRecheck k = v at h ⊢
  obtain ⟨_, _, hcap, _⟩ := hrange
  have honly : State.OnlyAt k v ((v.applyCap k).applyEnable k (s.policyOf k)) := onlyAt_applyCap.trans onlyAt_applyEnable
  have hthin : v.Thinned ((v.applyCap k).applyEnable k (s.policyOf k)) := thinned_applyCap.trans thinned_applyEnable
  have hdrawn := fun j e => h.drawn (old := s.policyOf k) (j := j) (e := e) hfits
  obtain ⟨hhost, hcmd, hstore, hpresent, hpending⟩ := honly.host
  obtain ⟨hmhost, hmstore, hmpresent, hmpending, hmraised⟩ := h.keyed.blocks
  obtain ⟨hvhost, _, hvstore, hvpresent, hvpending⟩ := h.denials.host
  refine ⟨(v.applyCap k).applyEnable k (s.policyOf k), rfl, (hcmd.trans h.cmd).trans (by rw [← hr]), (hhost.trans hvhost).trans hmhost,
    (hstore.trans hvstore).trans hmstore, (hpresent.trans hvpresent).trans hmpresent, (hpending.trans hvpending).trans hmpending,
    (honly.raised.trans h.denials.raised).trans hmraised, fun j hj => ?_, fun j e he => ?_, fun e he => ?_, fun _ => ?_, fun hl => ?_,
    fun h1 h2 hs => h.enabled h1 h2 hs, fun h1 h2 => ⟨fun hs => h.disabled_vacant h1 h2 hs, fun hs => h.disabled_probing h1 h2 hs,
      fun hs hl => h.disabled_standby h1 h2 hs hl, fun hs hl => ?_, fun l hs hl hp => ?_⟩, fun l tier hen hs hl hx hover hn hd hmax hlt => ?_,
    fun hen hle => ?_, fun h1 h2 h3 => ?_, fun l tier hen hl hover hn hd hmax => ?_⟩
  · obtain ⟨hsess, hlease, _, hramp, hmon, _⟩ := honly.others j hj
    exact ⟨hsess.trans (h.sessOf j), hlease.trans (h.leaseOf j), hramp.trans (h.rampOf_ne hj),
      hmon.trans (congrArg (PerSlot.get · j) (congrArg Monitor.slots h.mon))⟩
  · obtain ⟨e', he', _⟩ := h.entryOf (hthin.of_entryOf he)
    exact ⟨⟨e', he'⟩, (hdrawn j e he).1⟩
  · refine ⟨(hdrawn k e he).2 rfl, fun hk => ?_⟩
    obtain ⟨e', _, heq⟩ := h.entryOf (hthin.of_entryOf he)
    rw [if_pos rfl, PolicyRecord.keyed_of_rekeys hk] at heq
    rw [heq]
    exact ⟨rfl, rfl⟩
  · obtain ⟨hqueue, hmoved⟩ := h.queue hthin
    exact ⟨fun j e hj he hf => h.stands_ne honly hj he hf, fun e he hno hwait hramp hc hf => h.stands_self he hno hwait hramp hc hf,
      hqueue, hmoved⟩
  · exact h.of_no_lease hl
  · obtain ⟨l, hl, hp⟩ := hl
    obtain ⟨w, hw, heq⟩ := h.disabled_ramp h1 h2 hs hl hp
    have hpol : (w.policyOf k).enabled = false := by
      unfold State.policyOf; rw [hw.host.2.1]
      exact (congrArg PolicyRecord.enabled h.policyOf).trans h2
    obtain ⟨hlease, _, hgate, hqueue, hholder, _, hbarred, _⟩ := cutLease_parts (o := .policy) ((hw.leaseOf k).trans ((h.leaseOf k).trans hl))
    obtain ⟨hstate, _, hentry⟩ := hbarred hpol
    rw [heq]
    exact ⟨hlease, hentry, hstate, hgate, hqueue, hholder⟩
  · exact h.disabled_on h1 h2 hs hl hp
  · have hterm : Lease.term (s.leaseOf k) = l.draw := by
      rw [hl]
      show max l.draw (Transition.raiseDraw l.trans) = _
      rw [hx]; exact Nat.max_zero _
    rw [h.of_over hen (by rw [hterm]; exact hover) hn hd hmax]
    obtain ⟨n, left, htarget, hlease, hrecall, _⟩ := recall_stands (o := .policy) (by rw [h.sessOf]; exact hs) ((h.leaseOf k).trans hl) hlt
      l ((h.leaseOf k).trans hl)
    rw [hx] at htarget
    obtain ⟨rfl, rfl⟩ := htarget
    rw [h.settings] at hlease hrecall
    rw [h.drawOf] at hlease
    exact ⟨hlease, by rw [hrecall, show (s.settings.settleTime * 10 + 9) / 10 = s.settings.settleTime by omega]⟩
  · rw [h.of_within hen hle]
    refine ⟨h.leaseOf k, h.sessOf k, fun hc => ?_, fun hc => ?_⟩
    · have hpower : v.power = s.power := h.power.trans (h.keyed.sameClass hc)
      exact ⟨congrArg (PerSlot.get · k) (congrArg PowerPath.slots hpower), congrArg PowerPath.queue hpower⟩
    · exact (h.keyed.newClass hc).congr h.power
  · obtain ⟨hreclaim, hearmark⟩ := h.keyed.abandoned h1 h2 h3
    have hv : v.alloc.reclaim = none ∧ v.alloc.earmark = 0 := by
      rcases h.denials.reclaim with hgone | ⟨hr', he'⟩
      · exact hgone
      · exact ⟨hr'.trans hreclaim, he'.trans hearmark⟩
    obtain ⟨hr', he'⟩ := hthin.reclaim hv.1
    exact ⟨hr'.trans hv.1, he'.trans hv.2⟩
  · have hlv := (h.leaseOf k).trans hl
    rw [h.of_over hen hover hn hd hmax]
    refine ⟨fun t d o hx hs n b hg => h.cancelled hs hl hx hg, fun hs hlt => ?_, fun hs hle => ?_, fun hs hlt => ?_⟩
    · obtain ⟨n, left, htarget, hlease, hrecall, _⟩ := recall_stands (o := .policy) (by rw [h.sessOf]; exact hs) hlv hlt l hlv
      rw [h.settings] at htarget
      rw [h.drawOf] at hlease
      exact ⟨n, left, htarget, hlease, hrecall⟩
    · exact (recall_notIssued (o := .policy) (by rw [h.sessOf]; exact hs) hlv hle l hlv).1
    · rw [recall_of_ramp (by rw [h.sessOf]; exact hs) (.inr rfl) (by rw [grantedTier_of_lease hlv]; exact hlt)]
      obtain ⟨hlease, hramp, hgate, hqueue, hholder, hstands, hbarred, hnotices⟩ := cutLease_parts (o := .policy) hlv
      rw [h.policyOf] at hstands hbarred hnotices
      rw [h.sessOf] at hstands
      refine ⟨hlease, hramp, hgate, hqueue, hholder, hstands, fun hr => ?_, fun hr hq hreclaim => ?_⟩
      · obtain ⟨hstate, hend, _⟩ := hbarred hr
        exact ⟨hstate, hend⟩
      · obtain ⟨hsame, hnone, hnoreclaim⟩ := h.notices hq hreclaim
        rw [hnotices hr hnone hnoreclaim, hsame]; rfl

end Sys2Proof.Machine
end

section
/-! PROOFS. A transaction: its address byte and its words, and the end that takes the armed command (R154, R160, R174, R178). -/

namespace Sys2Proof.Machine

variable {s t u : State} {k : Slot} {b : Byte} {w w' : Word} {a : BitVec 7} {c : Instr} {write : Bool} {n limit reserve : Nat} {r : PolicyRecord}

/-! ### The transaction in progress stands through a command -/

theorem host_finish : s.finish.host = s.host := by
  obtain ⟨⟨hhost, _⟩, _⟩ := finish_frame (s := s)
  exact hhost

theorem burst_answered {x : CmdResult} : (s.answered x).host.burst = s.host.burst := rfl

theorem burst_finished {x : CmdResult} (h : u.host = s.host) : (u.finish.answered x).host.burst = s.host.burst := by
  rw [burst_answered, host_finish, h]

theorem host_applyRecord : (s.applyRecord k r).host = s.host := by
  have h := live_applyRecheck (s := s) (k := k) (r := r)
  have honly : ∀ v : State, State.OnlyAt k v ((v.applyCap k).applyEnable k (s.policyOf k)) := fun v =>
    onlyAt_applyCap.trans onlyAt_applyEnable
  rw [applyRecord_eq, host_finish, (honly _).host.1, h.denials.host.1, h.keyed.blocks.1]

theorem burst_applyPolicy : (s.applyPolicy k).host.burst = s.host.burst := by
  cases h : s.applyCheck k s.cmd.staging with
  | ok =>
    by_cases hr : s.cmd.staging = s.policyOf k
    · rw [applyPolicy_same h hr, burst_answered]
    · rw [applyPolicy_changed h hr, burst_answered, host_applyRecord]
  | badArg | badSlot | floorConflict | budgetConflict | state | storeFail => rw [applyPolicy_refused h (by decide), burst_answered]

theorem host_testShedding : s.testShedding.host = s.host := by
  by_cases h : s.available < s.alloc.committed
  · obtain ⟨hhost, _⟩ := testShedding_shed h
    exact hhost.1
  · obtain ⟨honly, _⟩ := testShedding_unshed (Nat.le_of_not_lt h)
    exact honly.host.1

theorem burst_setBudget : (s.setBudget limit reserve).host.burst = s.host.burst := by
  by_cases ho : Ordered limit reserve
  · by_cases hf : s.floorSum ≤ limit - reserve
    · rw [setBudget_taken ho hf, applyBudget_eq]
      exact burst_finished (host_testShedding.trans denials_budgeted.host.1)
    · rw [setBudget_floorConflict ho (Nat.lt_of_not_le hf), burst_answered]
  · rw [setBudget_badArg ho, burst_answered]

theorem burst_admitSlot : (s.admitSlot k).host.burst = s.host.burst := by
  by_cases h : (s.sessOf k).state = .standby ∧ (s.sessOf k).admitFlag = false
  · have hbringup : ((s.admitted k).bringup k).host = s.host := by
      unfold State.bringup
      split
      · rfl
      · obtain ⟨honly, _⟩ := takeClaim_parts (s := s.admitted k) (k := k) (o := .bringup) (w := _) (n := 1) (by decide) (by decide)
        exact honly.host.1
    rw [admitSlot_of_waiting h.1 h.2]
    exact burst_finished hbringup
  · rw [show s.admitSlot k = s.answered .state from if_neg h, burst_answered]

theorem burst_evictSlot : (s.evictSlot k n).host.burst = s.host.burst := by
  by_cases h : s.Evictable k
  · by_cases hn : n ≤ 1
    · rw [evictSlot_of_taken h hn]
      exact burst_finished (onlyAt_unadmitted.trans onlyAt_evictLease).host.1
    · rw [evictSlot_of_badArg h (Nat.lt_of_not_le hn), burst_answered]
  · rw [evictable_iff, not_not, Option.isNone_iff_eq_none, Option.isNone_iff_eq_none] at h
    rw [evictSlot_of_nothing h.1 h.2, burst_answered]

theorem onlyAt_moveTier : State.OnlyAt k s (s.moveTier k n) := by
  unfold State.moveTier
  split
  · obtain ⟨honly, _⟩ := takeClaim_host_parts (s := s) (k := k) (n := n) (m := n)
    exact honly
  · split
    · exact onlyAt_recall
    · exact .refl s k

theorem burst_setTier : (s.setTier k n).host.burst = s.host.burst := by
  unfold State.setTier
  split
  · rfl
  · split
    · rfl
    · exact burst_finished onlyAt_moveTier.host.1

theorem burst_clearFault : (s.clearFault k).host.burst = s.host.burst := by
  unfold State.clearFault; split <;> rfl

theorem burst_rescan : (s.rescan k).host.burst = s.host.burst := by
  unfold State.rescan; split <;> rfl

/-! ### The command taken -/

theorem burst_command {f : State → State} (hf : ∀ v : State, (f v).host.burst = v.host.burst) :
    (s.command f).host.burst = s.host.burst := by
  unfold State.command; split
  · rfl
  · exact hf s

theorem burst_slotCommand {f : Slot → State → State} (hf : ∀ k (v : State), (f k v).host.burst = v.host.burst) :
    (s.slotCommand b f).host.burst = s.host.burst := by
  refine burst_command fun v => ?_
  split
  · rfl
  · exact hf _ v

/-- Whatever command is armed, none opens or continues a transaction. -/
theorem burst_takeCommand {cmd : Word} : (s.takeCommand cmd w w').host.burst = s.host.burst := by
  unfold State.takeCommand
  dsimp only
  split
  · exact burst_slotCommand fun _ _ => burst_applyPolicy
  · exact burst_command fun _ => burst_setBudget
  · exact burst_slotCommand fun _ _ => burst_admitSlot
  · exact burst_slotCommand fun _ _ => burst_evictSlot
  · exact burst_slotCommand fun _ _ => burst_setTier
  · exact burst_slotCommand fun _ _ => burst_clearFault
  · exact burst_slotCommand fun _ _ => burst_rescan
  · exact burst_command fun _ => rfl
  · exact burst_command fun _ => rfl

/-- After the end of a transaction none is in progress (R154). -/
theorem burst_endTransaction : s.endTransaction.host.burst = none := by
  unfold State.endTransaction State.whenLoaded
  dsimp only
  split
  · split
    · exact burst_takeCommand
    · rfl
  · rfl

/-- A word that does not continue the transaction acts as the first word after the transaction's end (log entry 30). -/
theorem touch_endTransaction (h : ¬ s.WordFits write a) : s.touch write a = s.endTransaction.touch write a := by
  rw [State.touch_of_not_fits h]
  unfold State.touch State.reach
  rw [burst_endTransaction]

theorem WritesAt.after_end (hw : WritesAt c a) (h : ¬ s.WordFits true a) : exec c s = exec c s.endTransaction := by
  obtain ⟨f, hf⟩ := hw
  rw [hf, hf, touch_endTransaction h]

theorem ReadsAt.after_end (hr : ReadsAt c a) (h : ¬ s.WordFits false a) : exec c s = exec c s.endTransaction := by
  rw [hr, hr]
  unfold State.fetch
  rw [touch_endTransaction h]

/-! ### The end of a transaction -/

theorem exec_transactionEnd : exec .transactionEnd s = .next s.endTransaction := rfl

theorem endTransaction_of_armed (hd : s.store.startDone = true) (ha : s.host.armed = true) :
    s.endTransaction = (s.modHost HostPort.release).takeCommand s.host.cmd s.host.arg0 s.host.arg1 := by
  unfold State.endTransaction State.whenLoaded
  dsimp only
  rw [if_pos ha, if_pos (show (s.modHost HostPort.release).store.startDone = true from hd)]

/-- The slot field of CMD is its low byte (section 11.2). -/
theorem byteOf_bitField_low (x : Word) : byteOf (bitField x 0 8) = x.extractLsb' 0 8 := by
  refine BitVec.eq_of_toNat_eq ?_
  rw [byteOf, BitVec.toNat_ofNat, bitField, BitVec.extractLsb'_toNat, Nat.mod_mod]

/-- The commands by their codes: each is what its own row does, with the slot field and the arguments (R160). -/
theorem takeCommand_of_code {cmd : Word} (hd : s.store.startDone = true) {code : Nat} :
    let field : Byte := cmd.extractLsb' 0 8
    (code, c) ∈ [(1, Instr.applyPolicy field), (2, .setBudget w w'), (3, .admitSlot field), (4, .evict field w), (5, .setTier field w),
      (6, .clearFault field), (7, .rescan field), (8, .storePolicy)] → cmd.toNat / 256 = code →
    exec c s = .next (s.takeCommand cmd w w') := by
  intro field hc hcode
  have hloaded : ∀ f : State → State, s.whenLoaded f = f s := fun f => if_pos hd
  have hfield : bitField cmd 8 8 = code := (bitField_high cmd).trans hcode
  unfold State.takeCommand
  rw [hfield, byteOf_bitField_low]
  simp only [List.mem_cons, Prod.mk.injEq, List.not_mem_nil, or_false] at hc
  rcases hc with ⟨rfl, rfl⟩ | ⟨rfl, rfl⟩ | ⟨rfl, rfl⟩ | ⟨rfl, rfl⟩ | ⟨rfl, rfl⟩ | ⟨rfl, rfl⟩ | ⟨rfl, rfl⟩ | ⟨rfl, rfl⟩ <;>
    exact congrArg Host.Outcome.next (hloaded _)

/-- A code that names no command (R160). -/
theorem takeCommand_of_unknown {cmd : Word} (h : cmd.toNat / 256 = 0 ∨ 8 < cmd.toNat / 256) :
    s.takeCommand cmd w w' = s.command (State.complete .badArg) := by
  unfold State.takeCommand
  rw [bitField_high]
  dsimp only
  generalize cmd.toNat / 256 = code at *
  split
  case h_9 => rfl
  all_goals omega

theorem commands_storePolicy : Commands .storePolicy State.storePolicy := fun _ => rfl

/-! ### The address byte -/

/-- Bit 7 of the address byte gives the direction, bits 6..0 the first address (section 11.1). -/
theorem opened_eq (b : Byte) : (Burst.opened b).write = decide (128 ≤ b.toNat) ∧ (Burst.opened b).next.toNat = b.toNat % 128 := by
  refine ⟨?_, ?_⟩
  · have hmsb : b.msb = b.getLsbD 7 := BitVec.msb_eq_getLsbD_last b
    show b.getLsbD 7 = _
    rw [← hmsb]
    exact BitVec.msb_eq_decide b
  · show (b.extractLsb' 0 7).toNat = _
    rw [BitVec.extractLsb'_toNat]
    rfl

theorem toNat_addressByte : (addressByte write a).toNat = (if write = true then 128 else 0) + a.toNat := by
  unfold addressByte
  rw [BitVec.toNat_cons']
  cases write <;> rfl

/-- Settles O36: the address byte bit by bit, the end of an armed transaction by the command's code, and the words that end one. -/
theorem aCommandIsTakenAtTheEndOfItsTransaction : Obligations.ACommandIsTakenAtTheEndOfItsTransaction := by
  unfold Obligations.ACommandIsTakenAtTheEndOfItsTransaction
  intro s slot a b reg addr v v' hd h released named code field
  have hreleased : s.modHost HostPort.release = released := rfl
  have hslot : ∀ c ∈ named, ∃ g, CommandsSlot c slot g := by
    simp only [named, List.forall_mem_cons, List.not_mem_nil, false_imp_iff, implies_true, and_true]
    exact ⟨⟨_, fun _ => rfl⟩, ⟨_, fun _ => rfl⟩, ⟨_, fun _ => rfl⟩, ⟨_, fun _ => rfl⟩, ⟨_, fun _ => rfl⟩, ⟨_, fun _ => rfl⟩⟩
  refine ⟨opened_eq, toNat_addressByte, fun hb => ?_, fun ha => ?_, fun ha => ⟨fun n c hc hn => ?_, fun hcode => ?_⟩,
    fun hbusy c hc => ?_, fun hi hb c hc => ?_, fun c write at' hc hfits => ⟨s.endTransaction, rfl, burst_endTransaction, ?_⟩⟩
  · unfold State.reach
    rw [hb]; rfl
  · rw [exec_transactionEnd, State.endTransaction_burst_of_unarmed ha]; rfl
  · rw [exec_transactionEnd, endTransaction_of_armed hd ha, hreleased]
    exact (takeCommand_of_code (s := released) hd hc hn).symm
  · rw [exec_transactionEnd, endTransaction_of_armed hd ha, takeCommand_of_unknown hcode, hreleased]
    refine congrArg Host.Outcome.next ?_
    split
    · rename_i hi; exact command_of_idle (s := released) hi
    · rename_i hi; exact command_of_busy (s := released) hi
  · have hcommands : ∃ f, Commands c f := by
      rcases hc with hc | rfl | rfl
      · obtain ⟨g, hg⟩ := hslot c hc
        exact ⟨_, hg.commands⟩
      · exact ⟨_, commands_setBudget⟩
      · exact ⟨_, commands_storePolicy⟩
    obtain ⟨f, hf⟩ := hcommands
    exact hf.exec_busy hd hbusy
  · obtain ⟨g, hg⟩ := hslot c hc
    exact hg.exec_badSlot hd hi hb
  · have hword : write = true ∧ WritesAt c at' ∨ write = false ∧ ReadsAt c at' := by
      simp only [List.mem_cons, Prod.mk.injEq, List.not_mem_nil, or_false] at hc
      iterate 10 (obtain ⟨rfl, rfl, rfl⟩ | hc := hc; · exact .inl ⟨rfl, _, fun _ => rfl⟩)
      obtain ⟨rfl, rfl, rfl⟩ | ⟨rfl, rfl, rfl⟩ | ⟨rfl, rfl, rfl⟩ := hc <;> exact .inr ⟨rfl, fun _ => rfl⟩
    obtain ⟨rfl, hw⟩ | ⟨rfl, hr⟩ := hword
    · exact hw.after_end hfits
    · exact hr.after_end hfits

end Sys2Proof.Machine
end

section
/-! PROOFS. What the registers and the tables read, word by word and bit by bit (R94, R127, R141, R155, R157, R174 to R178, sections 11.2 and 11.3). -/

namespace Sys2Proof.Machine

variable {s : State} {k : Slot} {sel w : Word} {n : Nat} {b : Bool} {fs : List (Nat × Nat × Nat)}

/-! ### Words made of fields -/

theorem bit_eq_field (b : Bool) (lo : Nat) : bit b lo = b.toNat % 2 ^ 1 * 2 ^ lo := by
  cases b
  · exact (Nat.zero_mul _).symm
  · exact (Nat.one_mul _).symm

/-- The number of a word that carries the fields `fs`, each a triple of lowest bit, width and value. -/
def fieldSum : List (Nat × Nat × Nat) → Nat
  | [] => 0
  | (lo, n, v) :: fs => field v lo n + fieldSum fs

theorem carries_iff : Carries w fs ↔ w.toNat = fieldSum fs := by
  have hsum : (fs.map (fun f => f.2.2 % 2 ^ f.2.1 * 2 ^ f.1)).sum = fieldSum fs := by
    induction fs with
    | nil => rfl
    | cons f fs ih => rw [List.map_cons, List.sum_cons, ih]; rfl
  unfold Carries
  rw [hsum]

/-- A register word carries the fields whose sum its number is. -/
theorem carries_wordOf (h : n % 65536 = fieldSum fs) : Carries (wordOf n) fs :=
  carries_iff.2 ((BitVec.toNat_ofNat n 16).trans h)

/-- A number that fills its word, cut to it (log entry 33). -/
theorem carries_wordOf_whole (n : Nat) : Carries (wordOf n) [(0, 16, n)] := carries_wordOf (by simp only [field, fieldSum]; omega)

theorem carries_word (w : Word) : Carries w [(0, 16, w.toNat)] := by
  have hw := w.isLt
  refine carries_iff.2 ?_
  simp only [field, fieldSum]
  omega

theorem carries_zero : Carries 0 [] := rfl

theorem recordReads_zeros (n : Nat) : RecordReads (List.replicate n 0) (List.replicate n []) := by
  induction n with
  | zero => exact .nil
  | succ n ih => exact .cons carries_zero ih

/-! ### Codes -/

theorem codesRead : CodesRead := ⟨rfl, rfl, rfl, fun _ _ _ _ _ => rfl⟩

theorem AllocState.code_eq (x : AllocState) : x.code = [AllocState.running, .shedding, .sagHold].idxOf x := by cases x <;> rfl

theorem CopyClass.code_eq (x : CopyClass) : x.code = [CopyClass.none, .valid, .blank, .bad].idxOf x := by cases x <;> rfl

theorem Source.code_eq (x : Source) : x.code = [Source.none, .a, .b, .defaults].idxOf x := by cases x <;> rfl

theorem SessState.code_eq (x : SessState) : x.code =
    [SessState.vacant, .barred, .listening, .rejected, .standby, .rampWait, .ramping, .on, .faulted].idxOf x := by cases x <;> rfl

theorem RampState.code_eq (x : RampState) : x.code = [RampState.none, .queued, .backoff, .ramping].idxOf x := by cases x <;> rfl

theorem SagState.code_eq (x : SagState) : x.code = [SagState.normal, .sagged, .holdoff].idxOf x := by cases x <;> rfl

theorem EntryOrigin.code_eq (x : EntryOrigin) : x.reason.code = [EntryOrigin.claim, .bringup, .restore, .host].idxOf x + 1 := by
  cases x <;> rfl

theorem PowerClass.isEssential_eq (x : PowerClass) : x.isEssential = decide (x = .essential) := by cases x <;> rfl

theorem StartMode.isAuto_eq (x : StartMode) : x.isAuto = decide (x = .auto) := by cases x <;> rfl

theorem CmdResult.code_lt (x : CmdResult) : x.code < 256 := by cases x <;> decide

theorem Session.lastReason_eq (x : Session) : x.lastReason = if x.state = .rejected then x.refusal else x.lastEnd := by
  unfold Session.lastReason
  cases x.state <;> rfl

theorem chanCode_eq (m : Option DownMsg) : chanCode m = m.elim 0 DownMsg.kindCode := by cases m <;> rfl

theorem Ramp.shownTimer_eq (r : Ramp) : r.shownTimer = if r.state = .ramping ∨ r.state = .backoff then r.timer else 0 := by
  unfold Ramp.shownTimer
  cases r.state <;> rfl

theorem scanPeriodCode_ite (n : Nat) :
    scanPeriodCode n = if n = 2 then 0 else if n = 4 then 1 else if n = 8 then 2 else 3 := by
  unfold scanPeriodCode
  split
  · rfl
  · rfl
  · rfl
  · rename_i h2 h4 h8
    rw [if_neg h2, if_neg h4, if_neg h8]

theorem noticePending_eq : s.noticePending = decide (s.notices.records ≠ []) := by
  unfold State.noticePending
  cases s.notices.records <;> rfl

/-! ### The registers -/

theorem carries_statusWord : Carries s.statusWord [(0, 2, [AllocState.running, .shedding, .sagHold].idxOf s.alloc.state),
    (2, 1, (decide (s.store.state ≠ .idle)).toNat), (3, 1, s.host.cmdDone.toNat), (4, 1, s.host.cmdOverrun.toNat),
    (5, 1, s.host.badWrite.toNat), (6, 1, (decide (s.notices.records ≠ [])).toNat), (7, 1, s.store.startDone.toNat)] := by
  unfold State.statusWord
  rw [AllocState.code_eq, busy_eq, noticePending_eq]
  refine carries_wordOf ?_
  simp only [field, bit_eq_field, fieldSum]
  omega

theorem carries_controlWord : Carries s.controlWord [(0, 1, s.settings.backfill.toNat), (1, 1, s.settings.preempt.toNat),
    (2, 1, s.host.intNoticeEn.toNat), (3, 1, s.host.intCmdEn.toNat)] := by
  refine carries_wordOf ?_
  simp only [field, bit_eq_field, fieldSum]
  omega

theorem carries_countWord (q : NoticeQueue) : Carries q.countWord [(0, 6, q.records.length), (8, 8, q.lostCount)] := by
  refine carries_wordOf ?_
  simp only [field, fieldSum]
  omega

theorem carries_reportWord (r : StartReport) : Carries r.word [(0, 2, [CopyClass.none, .valid, .blank, .bad].idxOf r.classA),
    (2, 2, [CopyClass.none, .valid, .blank, .bad].idxOf r.classB), (4, 2, [Source.none, .a, .b, .defaults].idxOf r.source),
    (8, 8, r.generation.toNat)] := by
  unfold StartReport.word
  rw [CopyClass.code_eq, CopyClass.code_eq, Source.code_eq]
  refine carries_wordOf ?_
  simp only [field, fieldSum]
  omega

theorem carries_resultWord (r : CmdResult) : Carries (wordOf r.code) [(0, 8, r.code)] := by
  have hlt := r.code_lt
  refine carries_wordOf ?_
  simp only [field, fieldSum]
  omega

theorem carries_settingWord (x : Settings) (p : SettingReg × List (Nat × Nat × Nat)) (hp : p ∈
    [(SettingReg.settleTime, [(0, 16, x.settleTime)]), (.pollPeriod, [(0, 16, x.pollPeriod)]),
      (.linkCtrl, [(0, 2, x.lineRetries), (8, 8, x.linkGrace)]), (.rampCtrl, [(0, 8, x.rampTimeout), (8, 2, x.rampRetries)]),
      (.monCtrl, [(0, 2, if x.scanPeriod = 2 then 0 else if x.scanPeriod = 4 then 1 else if x.scanPeriod = 8 then 2 else 3),
        (8, 4, x.overdrawCount)]),
      (.overdrawMargin, [(0, 16, x.overdrawMargin)]), (.sagLevel, [(0, 16, x.sagLevel)]), (.sagHoldoff, [(0, 16, x.sagHoldoff)])]) :
    Carries (settingWord x p.1) p.2 := by
  revert p
  simp only [List.forall_mem_cons, List.not_mem_nil, false_imp_iff, implies_true, and_true]
  refine ⟨carries_wordOf_whole _, carries_wordOf_whole _, carries_wordOf ?_, carries_wordOf ?_, carries_wordOf ?_,
    carries_wordOf_whole _, carries_wordOf_whole _, carries_wordOf_whole _⟩
  · simp only [field, fieldSum]; omega
  · simp only [field, fieldSum]; omega
  · rw [scanPeriodCode_ite]
    simp only [field, fieldSum]; omega

theorem register_of_high {addr : BitVec 7} (h : 0x1E ≤ addr.toNat) : s.register addr = 0 := by
  unfold State.register
  split
  case h_22 =>
    unfold BudgetCapture.at?
    split
    case h_8 => rfl
    all_goals omega
  all_goals omega

theorem intAsserted_iff : s.intAsserted = true ↔
    s.notices.records ≠ [] ∧ s.host.intNoticeEn = true ∨ s.host.cmdDone = true ∧ s.host.intCmdEn = true := by
  unfold State.intAsserted
  rw [noticePending_eq, Bool.or_eq_true, Bool.and_eq_true, Bool.and_eq_true, decide_eq_true_iff]

theorem registersRead (s : State) : s.RegistersRead := by
  have hset := carries_settingWord s.settings
  simp only [List.forall_mem_cons, List.not_mem_nil, false_imp_iff, implies_true, and_true] at hset
  obtain ⟨h0F, h10, h11, h12, h13, h14, h16, h17⟩ := hset
  refine ⟨?_, fun addr h => register_of_high h, intAsserted_iff⟩
  simp only [List.forall_mem_cons, List.not_mem_nil, false_imp_iff, implies_true, and_true]
  exact ⟨carries_word 0x0B08, carries_word 0x0001, carries_statusWord, carries_controlWord, carries_word _, carries_word _,
    carries_word _, carries_resultWord _, h0F, h10, h11, h12, h13, h14, carries_wordOf_whole _, h16, h17, carries_word _,
    carries_countWord _, carries_reportWord _, carries_wordOf_whole _⟩

/-! ### The table records -/

theorem reads_policy (r : PolicyRecord) : r.Reads r.words := by
  refine .cons (carries_wordOf ?_) (.cons (carries_wordOf_whole _) (.cons (carries_wordOf_whole _) .nil))
  rw [PowerClass.isEssential_eq, StartMode.isAuto_eq]
  simp only [field, bit_eq_field, fieldSum]
  omega

theorem reads_session (s : State) (k : Slot) : s.SessionReads k (sessionWords (s.sessOf k) (s.lineOf k)) := by
  unfold State.SessionReads sessionWords RecordReads
  dsimp only
  rw [← SessState.code_eq, ← Session.lastReason_eq, ← chanCode_eq, ← chanCode_eq, ← chanCode_eq]
  unfold tens
  simp only [List.forall₂_cons, List.forall₂_nil_left_iff, and_true]
  and_intros <;> refine carries_wordOf ?_ <;> simp only [field, bit_eq_field, fieldSum] <;> omega

/-- What the LEASE record of a lease shows, with the phase as the model codes it (R9, section 11.3). -/
theorem leaseReads_of_lease {l : Lease} {ws : List Word} (hl : s.leaseOf k = some l) : s.LeaseReads k ws ↔
    match l.trans with
    | none => RecordReads ws
        [[(0, 2, (s.sessOf k).state.phaseCode), (2, 3, l.tier), (5, 1, l.short.toNat)], [(0, 8, l.tag.toNat)], [(0, 12, l.draw)], [], []]
    | some (.raise t d o) => RecordReads ws
        [[(0, 2, (s.sessOf k).state.phaseCode), (2, 3, l.tier), (5, 1, l.short.toNat), (6, 2, 1)],
         [(0, 8, l.tag.toNat), (8, 3, t), (11, 5, o.reason.code)], [(0, 12, l.draw)], [(0, 12, d)], []]
    | some (.lower t d o left) => RecordReads ws
        [[(0, 2, (s.sessOf k).state.phaseCode), (2, 3, l.tier), (5, 1, l.short.toNat), (6, 2, 2), (8, 1, (s.isVictim k).toNat)],
         [(0, 8, l.tag.toNat), (8, 3, t), (11, 5, o.reason.code)], [(0, 12, l.draw)], [(0, 12, d)], [(0, 12, left)]] := by
  unfold State.LeaseReads
  rw [hl]
  cases (s.sessOf k).state <;> exact Iff.rfl

/-- A LEASE record, with the transition's kind, target, origin, draw and deadline as fields of their own. -/
theorem leaseWords_of_lease {l : Lease} {kind target origin draw left : Nat} (hl : s.leaseOf k = some l)
    (hx : Transition.fields l.trans = (kind, target, origin, draw, left)) : s.leaseWords k =
      [wordOf (field (s.sessOf k).state.phaseCode 0 2 + field l.tier 2 3 + bit l.short 5 + field kind 6 2 +
        bit (s.isVictim k && l.lowering) 8),
       wordOf (field l.tag.toNat 0 8 + field target 8 3 + field origin 11 5),
       wordOf (field l.draw 0 12), wordOf (field draw 0 12), wordOf (field left 0 12)] := by
  unfold State.leaseWords
  rw [hl]
  dsimp only
  rw [hx]

theorem reads_lease (s : State) (k : Slot) : s.LeaseReads k (s.leaseWords k) := by
  cases hl : s.leaseOf k with
  | none =>
    unfold State.LeaseReads State.leaseWords
    rw [hl]
    exact recordReads_zeros 5
  | some l =>
    rw [leaseReads_of_lease hl]
    unfold RecordReads
    cases hx : l.trans with
    | none =>
      have hlow : l.lowering = false := by unfold Lease.lowering; rw [hx]
      have hfields : Transition.fields l.trans = (0, 0, 0, 0, 0) := congrArg Transition.fields hx
      rw [leaseWords_of_lease hl hfields, hlow, Bool.and_false]
      simp only [List.forall₂_cons, List.forall₂_nil_left_iff, and_true]
      and_intros <;> refine carries_wordOf ?_ <;> simp only [field, bit_eq_field, fieldSum, Bool.toNat_false] <;> omega
    | some x =>
      cases x with
      | raise t d o =>
        have hlow : l.lowering = false := by unfold Lease.lowering; rw [hx]
        have hfields : Transition.fields l.trans = (1, t, o.reason.code, d, 0) := congrArg Transition.fields hx
        rw [leaseWords_of_lease hl hfields, hlow, Bool.and_false]
        simp only [List.forall₂_cons, List.forall₂_nil_left_iff, and_true]
        and_intros <;> refine carries_wordOf ?_ <;> simp only [field, bit_eq_field, fieldSum, Bool.toNat_false] <;> omega
      | lower t d o left =>
        have hfields : Transition.fields l.trans = (2, t, o.reason.code, d, left) := congrArg Transition.fields hx
        rw [leaseWords_of_lease hl hfields, lowering_of_lower hx, Bool.and_true]
        simp only [List.forall₂_cons, List.forall₂_nil_left_iff, and_true]
        and_intros <;> refine carries_wordOf ?_ <;> simp only [field, bit_eq_field, fieldSum] <;> omega

theorem reads_queue (s : State) (n : Nat) : s.QueueReads n (s.queueWords n) := by
  unfold State.QueueReads State.queueWords
  cases s.alloc.queue[n]? with
  | none => exact recordReads_zeros 3
  | some e =>
    dsimp only
    have hmark : (s.alloc.reclaim.filter (fun r => r.slot == e.slot)).isSome = s.isBeneficiary e.slot ∧
        (s.alloc.reclaim.filter (fun r => r.slot == e.slot)).elim 0 Reclaim.shortfall =
          if s.isBeneficiary e.slot = true then s.alloc.reclaim.elim 0 Reclaim.shortfall else 0 := by
      unfold State.isBeneficiary
      cases s.alloc.reclaim with
      | none => exact ⟨rfl, rfl⟩
      | some r =>
        dsimp only
        rw [Option.filter_some]
        by_cases hheld : (r.slot == e.slot) = true
        · rw [if_pos hheld, if_pos hheld, hheld]; exact ⟨rfl, rfl⟩
        · rw [if_neg hheld, if_neg hheld, Bool.eq_false_iff.2 hheld]; exact ⟨rfl, rfl⟩
    obtain ⟨hsome, hshort⟩ := hmark
    rw [hsome, hshort, ← EntryOrigin.code_eq, ← PowerClass.isEssential_eq]
    unfold RecordReads
    simp only [List.forall₂_cons, List.forall₂_nil_left_iff, and_true]
    and_intros <;> refine carries_wordOf ?_ <;> simp only [field, bit_eq_field, fieldSum] <;> omega

theorem reads_ramp (s : State) (k : Slot) : s.RampReads k (s.rampWords k) := by
  unfold State.RampReads State.rampWords RecordReads
  dsimp only
  rw [← RampState.code_eq, ← PowerClass.isEssential_eq, ← Ramp.shownTimer_eq]
  simp only [List.forall₂_cons, List.forall₂_nil_left_iff, and_true]
  refine ⟨carries_wordOf ?_, carries_wordOf ?_, ?_⟩
  · simp only [field, bit_eq_field, fieldSum]; omega
  · have hposition : s.rampPosition k = if (s.rampOf k).state = .queued then s.power.queue.idxOf k else 15 := rfl
    rw [hposition]
    simp only [field, fieldSum]; omega
  · split
    · refine carries_wordOf ?_
      simp only [field, bit_eq_field, fieldSum]; omega
    · exact carries_zero

theorem reads_monitor (s : State) (k : Slot) : s.MonitorReads k (s.monitorWords k) := by
  unfold State.MonitorReads State.monitorWords RecordReads MonSlot.average tens
  dsimp only
  rw [← SagState.code_eq]
  simp only [List.forall₂_cons, List.forall₂_nil_left_iff, and_true]
  refine ⟨carries_wordOf ?_, carries_wordOf ?_, carries_wordOf ?_, carries_wordOf ?_, carries_wordOf ?_, ?_⟩
  case refine_6 =>
    split
    · refine carries_wordOf ?_
      simp only [field, fieldSum]; omega
    · exact carries_zero
  all_goals simp only [field, bit_eq_field, fieldSum]; omega

theorem carries_serial (x : BitVec 32) : Carries (x.extractLsb' 16 16) [(0, 16, x.toNat / 65536)] ∧
    Carries (x.extractLsb' 0 16) [(0, 16, x.toNat)] := by
  have hx := x.isLt
  refine ⟨?_, ?_⟩
  · show (x.extractLsb' 16 16).toNat = _
    rw [BitVec.extractLsb'_toNat, Nat.shiftRight_eq_div_pow]
    simp
  · show (x.extractLsb' 0 16).toNat = _
    rw [BitVec.extractLsb'_toNat]
    simp

theorem reads_module (s : State) (k : Slot) : s.ModuleReads k (moduleWords (s.sessOf k).desc) := by
  unfold State.ModuleReads
  cases (s.sessOf k).desc with
  | none => exact recordReads_zeros 10
  | some d =>
    obtain ⟨hhigh, hlow⟩ := carries_serial d.serial
    have hcount : Carries (wordOf (field d.tiers 0 3 + bit true 3 + field (min 7 d.preferred.toNat) 4 3 + field d.flags.toNat 8 8))
        [(0, 3, d.draws.length), (3, 1, 1), (4, 3, min 7 d.preferred.toNat), (8, 8, d.flags.toNat)] := by
      unfold Descriptor.tiers
      refine carries_wordOf ?_
      simp only [field, bit_eq_field, fieldSum, Bool.toNat_true]; omega
    exact .cons hcount (.cons (carries_word _) (.cons hhigh (.cons hlow (.cons (carries_word _) (.cons (carries_word _)
      (.cons (carries_word _) (.cons (carries_word _) (.cons (carries_word _) (.cons (carries_word _) .nil)))))))))

/-! ### The record that TABLE_SEL selects -/

theorem recordOf_staging (h : sel.toNat / 256 = 1) : s.recordOf sel = s.cmd.staging.words := by
  unfold State.recordOf
  dsimp only
  rw [selCode_toNat, h]
  rfl

theorem selIndex_eq (sel : Word) : selIndex sel = sel.toNat % 256 := by
  unfold selIndex
  rw [bitField_eq]
  exact congrArg (· % 256) (Nat.div_one _)

theorem recordOf_queue (h : sel.toNat / 256 = 4) (hi : sel.toNat % 256 < 8) : s.recordOf sel = s.queueWords (sel.toNat % 256) := by
  unfold State.recordOf
  dsimp only
  rw [selCode_toNat, h, selIndex_eq]
  exact if_pos hi

/-- The record of a slot's table (section 11.3). -/
theorem recordOf_slot (h1 : sel.toNat / 256 ≠ 1) (h4 : sel.toNat / 256 ≠ 4) (hi : sel.toNat % 256 = k.val) : s.recordOf sel =
    match sel.toNat / 256 with
    | 0 => (s.policyOf k).words
    | 2 => sessionWords (s.sessOf k) (s.lineOf k)
    | 3 => s.leaseWords k
    | 5 => s.rampWords k
    | 6 => s.monitorWords k
    | 7 => moduleWords (s.sessOf k).desc
    | _ => List.replicate (recordWords (selCode sel)) 0 := by
  unfold State.recordOf
  dsimp only
  rw [selCode_toNat, selIndex_eq, slotOf?_of_val hi]
  split
  · rename_i h; exact absurd h h1
  · rename_i h; exact absurd h h4
  · rfl

/-- An index beyond the table captures zeros (R158). -/
theorem recordOf_beyond (h1 : sel.toNat / 256 ≠ 1) (hi : 8 ≤ sel.toNat % 256) :
    s.recordOf sel = List.replicate (recordWords (selCode sel)) 0 := by
  unfold State.recordOf
  dsimp only
  rw [selCode_toNat, selIndex_eq, slotOf?_of_le hi, if_neg (Nat.not_lt.2 hi)]
  split
  · rename_i h; exact absurd h h1
  · rfl
  · rfl

/-- A code of no table captures zeros (R158). -/
theorem recordOf_unknown (h : 8 ≤ sel.toNat / 256) : s.recordOf sel = List.replicate (recordWords (selCode sel)) 0 := by
  by_cases hi : 8 ≤ sel.toNat % 256
  · exact recordOf_beyond (by omega) hi
  · rw [recordOf_slot (k := ⟨sel.toNat % 256, Nat.lt_of_not_le hi⟩) (by omega) (by omega) rfl]
    generalize sel.toNat / 256 = code at *
    split
    case h_7 => rfl
    all_goals omega

theorem tableReads (s : State) (sel : Word) : s.TableReads sel := by
  refine ⟨fun h => ?_, fun h hi => ?_, fun k hi => ?_, fun _ h1 hi => ?_, fun h => ?_⟩
  · rw [recordOf_staging h]; exact reads_policy _
  · rw [recordOf_queue h hi]; exact reads_queue s _
  · have hslot : ∀ code, sel.toNat / 256 = code → code ≠ 1 → code ≠ 4 → s.recordOf sel = _ := fun code hc h1 h4 =>
      recordOf_slot (s := s) (by rw [hc]; exact h1) (by rw [hc]; exact h4) hi
    refine ⟨fun h => ?_, fun h => ?_, fun h => ?_, fun h => ?_, fun h => ?_, fun h => ?_⟩ <;>
      rw [hslot _ h (by decide) (by decide), h]
    · exact reads_policy _
    · exact reads_session s k
    · exact reads_lease s k
    · exact reads_ramp s k
    · exact reads_monitor s k
    · exact reads_module s k
  · rw [recordOf_beyond h1 hi, selCode_eq]
  · rw [recordOf_unknown h]
    exact fun w hw => List.eq_of_mem_replicate hw

end Sys2Proof.Machine
end

section
/-! PROOFS. The reads of the host port: the two windows, the budget capture and the plain registers (R20, R129, R158, R172 to R175). -/

namespace Sys2Proof.Machine

variable {s : State} {k : Slot} {sel w : Word} {a : BitVec 7} {c : Instr} {n : Notice} {rest : List Notice} {p : Nat}

/-! ### A read word after the load -/

/-- What a read word fetches at `a` once the load is complete (R155). -/
def State.fetchLoaded (a : BitVec 7) (s : State) : State :=
  if a = 0x19 then s.readTable
  else if a = 0x1A then s.readNotice
  else if isBudget a then s.readBudget a
  else s.drive (s.register a)

theorem ReadsAt.exec_fits (hr : ReadsAt c a) (hd : s.store.startDone = true) (h : s.WordFits false a) :
    exec c s = .next ((s.pastWord false a).fetchLoaded a) := by
  rw [hr]
  unfold State.fetch
  rw [touch_eq_pastWord h]
  exact congrArg Host.Outcome.next (if_neg (by show ¬ s.store.startDone = false; rw [hd]; decide))

theorem readsAt_registerRead : ReadsAt (.budgetRegisterRead a) a := fun _ => rfl

theorem isBudget_iff : isBudget a = true ↔ 0x04 ≤ a.toNat ∧ a.toNat ≤ 0x0A := by
  unfold isBudget
  rw [Bool.and_eq_true, decide_eq_true_iff, decide_eq_true_iff]

/-- Outside the two windows and the budget registers a read drives the register and has no other effect. -/
theorem fetchLoaded_plain (h : a.toNat < 0x04 ∨ (0x0A < a.toNat ∧ a.toNat < 0x19) ∨ 0x1A < a.toNat) :
    s.fetchLoaded a = s.drive (s.register a) := by
  have htable : a ≠ 0x19 := by rintro rfl; revert h; decide
  have hnotice : a ≠ 0x1A := by rintro rfl; revert h; decide
  unfold State.fetchLoaded
  rw [if_neg htable, if_neg hnotice, if_neg]
  rw [isBudget_iff]
  omega

theorem nextAddr_of_outside (h : a.toNat < 0x04 ∨ (0x0A < a.toNat ∧ a.toNat < 0x19) ∨ 0x1A < a.toNat) : nextAddr a = a + 1 :=
  nextAddr_of_plain ⟨by rintro rfl; revert h; decide, by rintro rfl; revert h; decide⟩

/-! ### TABLE_DATA -/

/-- TABLE_SEL selects the MONITOR record of slot `k` (section 11.3). -/
theorem selects_monitor_iff : sel.toNat = 6 * 256 + k.val ↔ selCode sel = 6 ∧ selIndex sel = k.val := by
  have hk := k.isLt
  have hcode : selCode sel = 6 ↔ sel.toNat / 256 = 6 := by
    rw [← selCode_toNat]
    exact ⟨fun h => by rw [h]; rfl, fun h => BitVec.eq_of_toNat_eq h⟩
  rw [hcode, selIndex_eq]
  omega

/-- A capture clears the peak of the slot whose MONITOR record is selected, and no other (R129). -/
theorem clearPeak_eq : s.clearPeak sel = { s with mon := { s.mon with slots := PerSlot.tabulate (fun k =>
    if sel.toNat = 6 * 256 + k.val then { s.monOf k with peak := 0 } else s.monOf k) } } := by
  have hkept : (∀ k : Slot, sel.toNat ≠ 6 * 256 + k.val) → s = { s with mon := { s.mon with slots := PerSlot.tabulate (fun k =>
      if sel.toNat = 6 * 256 + k.val then { s.monOf k with peak := 0 } else s.monOf k) } } := fun hnone => by
    refine congrArg (fun v => ({ s with mon := { s.mon with slots := v } } : State)) (PerSlot.ext_get fun k => ?_)
    rw [PerSlot.get_tabulate, if_neg (hnone k)]
    rfl
  unfold State.clearPeak
  by_cases hcode : selCode sel = 6
  · rw [if_pos hcode]
    by_cases hindex : selIndex sel < 8
    · obtain ⟨j, hj⟩ : ∃ j : Slot, selIndex sel = j.val := ⟨⟨selIndex sel, hindex⟩, rfl⟩
      rw [slotOf?_of_val hj]
      refine congrArg (fun v => ({ s with mon := { s.mon with slots := v } } : State)) (PerSlot.ext_get fun k => ?_)
      rw [PerSlot.get_tabulate, PerSlot.get_set]
      by_cases hk : k = j
      · rw [if_pos hk, if_pos (selects_monitor_iff.2 ⟨hcode, hk ▸ hj⟩), hk]
        rfl
      · rw [if_neg hk, if_neg fun h => hk (Fin.ext ((selects_monitor_iff.1 h).2.symm.trans hj))]
        rfl
    · rw [slotOf?_of_le (Nat.le_of_not_lt hindex)]
      exact hkept fun k h => hindex ((selects_monitor_iff.1 h).2 ▸ k.isLt)
  · rw [if_neg hcode]
    exact hkept fun k h => hcode (selects_monitor_iff.1 h).1

theorem readTable_of_zero (h : s.host.wordPtr = 0) : s.readTable = { s with
    host := { s.host with
      tableBuf := s.recordOf s.host.tableSel
      wordPtr := advance s.host.wordPtr (recordWords (BitVec.ofNat 8 (s.host.tableSel.toNat / 256)))
      sdo := (s.recordOf s.host.tableSel)[0]?.getD 0 }
    mon := { s.mon with slots := PerSlot.tabulate (fun k =>
      if s.host.tableSel.toNat = 6 * 256 + k.val then { s.monOf k with peak := 0 } else s.monOf k) } } := by
  refine (if_pos h).trans ?_
  rw [clearPeak_eq, ← selCode_eq]
  rfl

theorem readTable_of_pos (h : 0 < s.host.wordPtr) : s.readTable = { s with host := { s.host with
    wordPtr := advance s.host.wordPtr (recordWords (BitVec.ofNat 8 (s.host.tableSel.toNat / 256)))
    sdo := bufferWord s.host.tableBuf s.host.wordPtr } } := by
  refine (if_neg (Nat.ne_of_gt h)).trans ?_
  rw [← selCode_eq]
  rfl

theorem bufferWord_of_some {buf : List Word} {x : Word} (h : buf[p]? = some x) : bufferWord buf p = x := by
  unfold bufferWord; rw [h]

theorem bufferWord_nil : bufferWord [] p = 0 := rfl

/-! ### NOTICE_DATA -/

/-- Word 0 of NOTICE_DATA moves the head of the queue to the read buffer (R174). -/
theorem readNotice_of_head (hp : s.host.noticePtr = 0) (h : s.notices.records = n :: rest) : s.readNotice = { s with
    notices := { s.notices with records := rest }
    host := { s.host with noticeBuf := .record n, noticePtr := 1, sdo := n.word 0 } } := by
  unfold State.readNotice State.takeNotice
  rw [if_pos hp, h, hp]
  dsimp only [State.modHost]
  rw [hp]
  rfl

/-- Word 0 of NOTICE_DATA with the queue empty fills the read buffer with the empty record (R174). -/
theorem readNotice_of_noHead (hp : s.host.noticePtr = 0) (h : s.notices.records = []) : s.readNotice = { s with
    host := { s.host with noticeBuf := .emptyRecord, noticePtr := 1, sdo := 0 } } := by
  unfold State.readNotice State.takeNotice
  rw [if_pos hp, h, hp]
  dsimp only [State.modHost]
  rw [hp]
  rfl

/-- A later word of NOTICE_DATA comes from the read buffer (R174). -/
theorem readNotice_of_pos (h : s.host.noticePtr = 1 ∨ s.host.noticePtr = 2) : s.readNotice = { s with host := { s.host with
    noticePtr := (s.host.noticePtr + 1) % 3, sdo := s.host.noticeBuf.word s.host.noticePtr } } := by
  have hadvance : advance s.host.noticePtr 3 = (s.host.noticePtr + 1) % 3 := by
    rcases h with h | h <;> rw [h] <;> rfl
  unfold State.readNotice
  rw [if_neg (by omega), ← hadvance]
  rfl

theorem noticeWord_zero (n : Notice) : n.word 0 = BitVec.ofNat 16 (n.kind.code + n.seq.toNat * 256) := by
  have hkind : n.kind.code < 256 := by cases n.kind <;> decide
  have hseq := n.seq.isLt
  refine congrArg (BitVec.ofNat 16) ?_
  simp only [field]
  omega

theorem noticeWord_one (n : Notice) : n.word 1 =
    BitVec.ofNat 16 (n.slot.elim 15 Fin.val + n.reason.code * 256 + n.short.toNat * 32768) := by
  have hslot : n.slot.elim 15 Fin.val < 16 := by
    cases n.slot with
    | none => decide
    | some k => exact k.isLt.trans (by decide)
  have hreason : n.reason.code < 32 := by cases n.reason <;> decide
  have hshort : n.short.toNat < 2 := n.short.toNat_lt
  refine congrArg (BitVec.ofNat 16) ?_
  simp only [field, bit_eq_field]
  omega

theorem noticeBufferWord_of_none {b : NoticeBuffer} (h : b = .empty ∨ b = .emptyRecord) : b.word p = 0 := by
  rcases h with rfl | rfl <;> rfl

/-! ### The budget registers -/

/-- The seven budget registers with FREE and EXCESS as differences of the naturals (R7). -/
theorem budgetNow_eq (s : State) : s.budgetNow =
    { supplyLimit := BitVec.ofNat 16 s.settings.supplyLimit, reserve := BitVec.ofNat 16 s.settings.reserve
      available := BitVec.ofNat 16 (s.settings.supplyLimit - s.settings.reserve)
      committed := BitVec.ofNat 16 s.alloc.committed, earmark := BitVec.ofNat 16 s.alloc.earmark
      free := BitVec.ofNat 16 (s.settings.supplyLimit - s.settings.reserve - (s.alloc.committed + s.alloc.earmark))
      excess := BitVec.ofNat 16 (s.alloc.committed + s.alloc.earmark - (s.settings.supplyLimit - s.settings.reserve)) } := by
  have hfree : s.freeReg = s.settings.supplyLimit - s.settings.reserve - (s.alloc.committed + s.alloc.earmark) := by
    unfold State.freeReg State.free State.available; omega
  have hexcess : s.excessReg = s.alloc.committed + s.alloc.earmark - (s.settings.supplyLimit - s.settings.reserve) := by
    unfold State.excessReg State.free State.available; omega
  unfold State.budgetNow
  rw [hfree, hexcess]
  rfl

/-- A budget word comes from the capture of its transaction, made with the first of them (R20). -/
theorem exec_budgetRead {f : BudgetCapture → Word} (hf : (a, f) ∈
      [((0x04 : BitVec 7), BudgetCapture.supplyLimit), (0x05, BudgetCapture.reserve), (0x06, BudgetCapture.available),
        (0x07, BudgetCapture.committed), (0x08, BudgetCapture.earmark), (0x09, BudgetCapture.free), (0x0A, BudgetCapture.excess)])
    (hd : s.store.startDone = true) (h : s.WordFits false a) : exec (.budgetRegisterRead a) s = .next { s with host := { s.host with
      burst := some ⟨false, a + 1⟩, budget := some s.capture, sdo := f s.capture } } := by
  rw [readsAt_registerRead.exec_fits hd h]
  simp only [List.mem_cons, List.not_mem_nil, or_false, Prod.mk.injEq] at hf
  rcases hf with ⟨rfl, rfl⟩ | ⟨rfl, rfl⟩ | ⟨rfl, rfl⟩ | ⟨rfl, rfl⟩ | ⟨rfl, rfl⟩ | ⟨rfl, rfl⟩ | ⟨rfl, rfl⟩ <;> rfl

/-! ### Posting -/

/-- Every post takes a sequence number; the record joins the tail of 32, or is lost and counted (R172, R173). -/
theorem take_cases (q : NoticeQueue) (kind : NoticeKind) (slot : Option Slot) (reason : Reason) (short : Bool) (value : Nat) :
    (q.take kind slot reason short value).nextSeq = q.nextSeq + 1 ∧
    (q.records.length < 32 →
      (q.take kind slot reason short value).records = q.records ++ [⟨q.nextSeq, kind, slot, reason, short, value⟩] ∧
      (q.take kind slot reason short value).lostCount = q.lostCount) ∧
    (32 ≤ q.records.length → (q.take kind slot reason short value).records = q.records ∧
      (q.take kind slot reason short value).lostCount = min 255 (q.lostCount + 1)) := by
  unfold NoticeQueue.take
  split
  · exact ⟨rfl, fun _ => ⟨rfl, rfl⟩, fun h => absurd h (Nat.not_le.2 ‹_›)⟩
  · exact ⟨rfl, fun h => absurd h ‹_›, fun _ => ⟨rfl, rfl⟩⟩

/-- Settles O50: the words of the registers and tables, and each read as the model's read of its window, the port standing past
the word. -/
theorem aReadWordCapturesAndAdvances : Obligations.AReadWordCapturesAndAdvances := by
  unfold Obligations.AReadWordCapturesAndAdvances
  intro s hd h next
  have htable : s.WordFits false 0x19 → exec .tableDataRead s = .next (s.pastWord false 0x19).readTable := fun hfits =>
    ReadsAt.exec_fits (a := 0x19) (fun _ => rfl) hd hfits
  have hnotice : s.WordFits false 0x1A → exec .noticeDataRead s = .next (s.pastWord false 0x1A).readNotice := fun hfits =>
    ReadsAt.exec_fits (a := 0x1A) (fun _ => rfl) hd hfits
  refine ⟨take_cases, codesRead, registersRead s, tableReads s, rfl, fun addr hfits haddr => ?plain,
    fun hfits => ⟨fun hptr => ?capture, fun hptr => ?buffered⟩,
    fun hfits => ⟨fun n rest hptr hrec => ?head, fun hptr hrec => ?noHead, fun n hptr hbuf => ?word1, fun n hptr hbuf => ?word2,
      fun hbuf hptr => ?noRecord⟩, ?budget⟩
  case plain =>
    rw [readsAt_registerRead.exec_fits hd hfits, fetchLoaded_plain haddr]
    unfold State.pastWord
    rw [nextAddr_of_outside haddr]
    rfl
  case capture =>
    rw [htable hfits]
    exact congrArg Host.Outcome.next (readTable_of_zero (s := s.pastWord false 0x19) hptr)
  case buffered =>
    rw [htable hfits]
    refine ⟨_, congrArg Host.Outcome.next (readTable_of_pos (s := s.pastWord false 0x19) hptr),
      fun x hx => bufferWord_of_some hx, fun hempty => ?_⟩
    exact (congrArg (bufferWord · h.wordPtr) hempty).trans bufferWord_nil
  case head =>
    rw [hnotice hfits, readNotice_of_head (s := s.pastWord false 0x1A) hptr hrec, noticeWord_zero]
    rfl
  case noHead =>
    rw [hnotice hfits, readNotice_of_noHead (s := s.pastWord false 0x1A) hptr hrec]
    rfl
  case word1 =>
    have hword : (s.pastWord false 0x1A).host.noticeBuf.word (s.pastWord false 0x1A).host.noticePtr = n.word 1 :=
      congrArg₂ NoticeBuffer.word hbuf hptr
    have hnext : ((s.pastWord false 0x1A).host.noticePtr + 1) % 3 = 2 := congrArg (fun p => (p + 1) % 3) hptr
    rw [hnotice hfits, readNotice_of_pos (s := s.pastWord false 0x1A) (.inl hptr), hword, hnext, noticeWord_one]
    rfl
  case word2 =>
    have hword : (s.pastWord false 0x1A).host.noticeBuf.word (s.pastWord false 0x1A).host.noticePtr = n.word 2 :=
      congrArg₂ NoticeBuffer.word hbuf hptr
    have hnext : ((s.pastWord false 0x1A).host.noticePtr + 1) % 3 = 0 := congrArg (fun p => (p + 1) % 3) hptr
    rw [hnotice hfits, readNotice_of_pos (s := s.pastWord false 0x1A) (.inr hptr), hword, hnext]
    rfl
  case noRecord =>
    rw [hnotice hfits, readNotice_of_pos (s := s.pastWord false 0x1A) hptr,
      noticeBufferWord_of_none (b := (s.pastWord false 0x1A).host.noticeBuf) hbuf]
    rfl
  case budget =>
    intro now addr w hw hfits
    have hnow : s.capture = h.budget.getD now := congrArg h.budget.getD (budgetNow_eq s)
    rw [exec_budgetRead hw hd hfits, hnow]

end Sys2Proof.Machine
end

section
/-! PROOFS. A step with a command waiting. -/

namespace Sys2Proof.Machine

/-- The other half of `step_of_empty`: a waiting command goes before anything the part does by itself. -/
theorem step_of_front {s : State} {c : Instr} {rest : List Instr} (h : s.pending = c :: rest) :
    step s = exec c { s with pending := rest } := by unfold step; rw [h]

/-- Settles O1: the queue is written twice, and only the rest stays in the state that the command runs on. -/
theorem stepTakesTheFrontCommand : Obligations.StepTakesTheFrontCommand := by
  unfold Obligations.StepTakesTheFrontCommand
  intro c rest s
  exact step_of_front (s := { s with pending := c :: rest }) rfl

end Sys2Proof.Machine
end
